-- ==== Sys2Proof/Word.lean ====
section
/-! DEFINITION. The words of the block (spec/00_scope.md R4, R5, R70 of 20_memory.md): the 8-bit MIDI byte, the 16-bit
event word, the 32-bit register and sample word, the binary32 bit pattern, and `Oct`, eight like things indexed by
`Fin 8` (8 voices, 8 trigger channels, 8 CV values: R3). -/

namespace Sys2Proof

/-- One byte: a MIDI byte (30_encoding.md R92) or a quarter of a sample word. -/
abbrev Byte := BitVec 8

/-- One 16-bit word of an event: its header, or half of a write's data word (30_encoding.md R90, R102). -/
abbrev Half := BitVec 16

/-- One 32-bit register word or sample-memory word (20_memory.md R70). -/
abbrev Word := BitVec 32

/-- The bit pattern of an IEEE 754 binary32 value: sign in bit 31, exponent in [30:23], fraction in [22:0]
(00_scope.md R6, 20_memory.md R70). -/
abbrev F32 := BitVec 32

/-- `clamp(v, lo, hi)` of 00_scope.md R5: min(max(v, lo), hi). -/
def clampInt (v lo hi : Int) : Int := min (max v lo) hi

/-- Eight like things, index 0 to 7. -/
structure Oct (α : Type) where
  x0 : α
  x1 : α
  x2 : α
  x3 : α
  x4 : α
  x5 : α
  x6 : α
  x7 : α
deriving DecidableEq, Repr

/-- Element `i`. -/
def Oct.get {α : Type} (o : Oct α) (i : Fin 8) : α :=
  match i with
  | 0 => o.x0
  | 1 => o.x1
  | 2 => o.x2
  | 3 => o.x3
  | 4 => o.x4
  | 5 => o.x5
  | 6 => o.x6
  | 7 => o.x7

/-- `o` with element `i` replaced by `a`. -/
def Oct.set {α : Type} (o : Oct α) (i : Fin 8) (a : α) : Oct α :=
  match i with
  | 0 => { o with x0 := a }
  | 1 => { o with x1 := a }
  | 2 => { o with x2 := a }
  | 3 => { o with x3 := a }
  | 4 => { o with x4 := a }
  | 5 => { o with x5 := a }
  | 6 => { o with x6 := a }
  | 7 => { o with x7 := a }

/-- The eight values `f 0` to `f 7`. -/
def Oct.build {α : Type} (f : Fin 8 → α) : Oct α :=
  ⟨f 0, f 1, f 2, f 3, f 4, f 5, f 6, f 7⟩

/-- The eight indices in increasing order: `for v in 0..7` of 00_scope.md R7. -/
def octIndices : List (Fin 8) := [0, 1, 2, 3, 4, 5, 6, 7]

/-- Eight bits as one byte, element `i` in bit `i` (44_mixer.md R222: "lane i is bit i"). -/
def Oct.bits (o : Oct Bool) : Byte :=
  BitVec.ofBool o.x7 ++ BitVec.ofBool o.x6 ++ BitVec.ofBool o.x5 ++ BitVec.ofBool o.x4 ++
    BitVec.ofBool o.x3 ++ BitVec.ofBool o.x2 ++ BitVec.ofBool o.x1 ++ BitVec.ofBool o.x0

end Sys2Proof
end

