-- ==== Sys2Proof/Machine/Memory.lean ====
section
/-! DEFINITION. Sample memory (spec/20_memory.md R74 (b), R75): 2^32 words of 32 bits, owned by the sample storage
collaborator, read by the block only. It is a list of byte cells, strictly rising; word `a` is the four cells 4a to
4a + 3, least significant byte first (DESIGN CHOICE, safe: R70 makes the byte order unobservable; log 7). An address
that is not listed has no memory behind it (R75 (a)), so no listed entry equals what an unlisted address reads as. -/

namespace Sys2Proof.Machine

/-- Sample memory as a list of (byte address, byte). -/
abbrev Memory := List Host.Cell

/-- The canonical form: addresses strictly rising. -/
def memoryRises : List Host.Cell → Bool
  | [] => true
  | [_] => true
  | c :: c' :: rest => decide (c.1 < c'.1) && memoryRises (c' :: rest)

/-- Sample memory is in canonical form, and every cell lies inside the 2^32 words. -/
def Memory.wf (m : Memory) : Bool := memoryRises m && m.all (fun c => decide (c.1 < 4 * 2 ^ 32))

/-- The byte at an address; none where there is no memory. -/
def readByte : Memory → Nat → Option Byte
  | [], _ => none
  | c :: rest, a => if c.1 = a then some c.2 else readByte rest a

/-- The memory with byte `b` at address `a`, in canonical form again. -/
def writeByte : Memory → Nat → Byte → Memory
  | [], a, b => [(a, b)]
  | c :: rest, a, b =>
    if a < c.1 then (a, b) :: c :: rest
    else if c.1 = a then (a, b) :: rest
    else c :: writeByte rest a b

/-- The byte address of the least significant byte of word `a`. -/
def byteAddr (a : Word) : Nat := 4 * a.toNat

/-- `SampleMem[a]` (R75): the word at word address `a`; none where there is no memory. -/
def readWord (m : Memory) (a : Word) : Option Word :=
  match readByte m (byteAddr a), readByte m (byteAddr a + 1), readByte m (byteAddr a + 2),
      readByte m (byteAddr a + 3) with
  | some b0, some b1, some b2, some b3 => some (b3 ++ b2 ++ b1 ++ b0)
  | _, _, _, _ => none

/-- The memory after the sample storage collaborator has put `d` at word address `a`. -/
def writeWord (m : Memory) (a d : Word) : Memory :=
  writeByte (writeByte (writeByte (writeByte m (byteAddr a) (d.extractLsb' 0 8)) (byteAddr a + 1)
    (d.extractLsb' 8 8)) (byteAddr a + 2) (d.extractLsb' 16 8)) (byteAddr a + 3) (d.extractLsb' 24 8)

end Sys2Proof.Machine
end

