-- ==== Sys2Proof/Config.lean ====
section
/-! DEFINITION. What an implementation of the block fixes (spec/00_scope.md R3) and the free values, which the spec
leaves open. A free value is an opaque constant without a body: nothing can evaluate it or prove what it is. -/

namespace Sys2Proof

/-- The parameters of 00_scope.md R3. They are fixed for the run (70_reset_and_hazards.md R320): no step writes them. -/
structure Params where
  /-- DEBOUNCE_THRESHOLD, 1..65534. -/
  debounceThreshold : Nat
  /-- ACCEL_TOP, 0..32767. -/
  accelTop : Nat
  /-- ACCEL_INC, 0..32767. -/
  accelInc : Nat
  /-- ACCEL_DEC, 1..32767. -/
  accelDec : Nat
  /-- BUTTON_CHECK_INTERVAL, 1..65535 ticks. -/
  buttonCheckInterval : Nat
  /-- HOLD_TICKS, 0..65534 button checks. -/
  holdTicks : Nat
  /-- DOUBLECLICK_TICKS, 1..65535 button checks. -/
  doubleClickTicks : Nat
  /-- FRAMES_PER_CALLBACK, 1..256. -/
  framesPerCallback : Nat
  /-- SPEED_CV_MIN. -/
  speedCvMin : Int
  /-- SPEED_CV_MAX. -/
  speedCvMax : Int
  /-- VEL0_IS_NOTE_OFF. -/
  vel0IsNoteOff : Bool
deriving DecidableEq, Repr

/-- Every parameter is in its range of 00_scope.md R3. The bound on the speed-CV range is 00_scope.md R6's: `flt` is
exact for every integer the block converts, |n| ≤ 2^24 (DEDUCED, log 1). -/
abbrev Params.Legal (p : Params) : Prop :=
  (1 ≤ p.debounceThreshold ∧ p.debounceThreshold ≤ 65534) ∧
  p.accelTop ≤ 32767 ∧ p.accelInc ≤ 32767 ∧
  (1 ≤ p.accelDec ∧ p.accelDec ≤ 32767) ∧
  (1 ≤ p.buttonCheckInterval ∧ p.buttonCheckInterval ≤ 65535) ∧
  p.holdTicks ≤ 65534 ∧
  (1 ≤ p.doubleClickTicks ∧ p.doubleClickTicks ≤ 65535) ∧
  (1 ≤ p.framesPerCallback ∧ p.framesPerCallback ≤ 256) ∧
  (-16777216 ≤ p.speedCvMin ∧ p.speedCvMin ≤ 16777216) ∧
  (-16777216 ≤ p.speedCvMax - p.speedCvMin ∧ p.speedCvMax - p.speedCvMin ≤ 16777216)

/-! ## The OPEN parameters (92_eei_decisions.md D50) -/

/-- OPEN: where DEBOUNCE_THRESHOLD lies in its range. -/
opaque Config.debounceThreshold : Nat
/-- OPEN: where ACCEL_TOP lies in its range. -/
opaque Config.accelTop : Nat
/-- OPEN: where ACCEL_INC lies in its range. -/
opaque Config.accelInc : Nat
/-- OPEN: where ACCEL_DEC lies in its range. -/
opaque Config.accelDec : Nat
/-- OPEN: where BUTTON_CHECK_INTERVAL lies in its range. -/
opaque Config.buttonCheckInterval : Nat
/-- OPEN: where HOLD_TICKS lies in its range. -/
opaque Config.holdTicks : Nat
/-- OPEN: where DOUBLECLICK_TICKS lies in its range. -/
opaque Config.doubleClickTicks : Nat

/-- The parameters of the machine that `State.reset` describes: each OPEN one is an unknown value of its range (every
value of the range is possible); the others have the value R3 gives as default or decision (log 1, log 2). -/
def Config.params : Params where
  debounceThreshold := 1 + Config.debounceThreshold % 65534
  accelTop := Config.accelTop % 32768
  accelInc := Config.accelInc % 32768
  accelDec := 1 + Config.accelDec % 32767
  buttonCheckInterval := 1 + Config.buttonCheckInterval % 65535
  holdTicks := Config.holdTicks % 65535
  doubleClickTicks := 1 + Config.doubleClickTicks % 65535
  framesPerCallback := 64
  speedCvMin := 0
  speedCvMax := 2000
  vel0IsNoteOff := false

/-! ## Free values -/

/-- Free: the bit pattern of a NaN result, drawn with the counter `State.draws`, the voice and the place of the
operation in the step (44_mixer.md R219: "The payload of a NaN result is not fixed"; log 5). -/
opaque Config.nanBits (draw voice site : Nat) : F32

/-- Free: what a sample read returns that races with a write of the word, drawn with the counter `State.draws`, the
voice and which of the lookup's two reads it is (20_memory.md R75 (b); log 6). -/
opaque Config.racedWord (draw voice site : Nat) : F32

/-- Free: where the values of EXP2F are split between the two halves of the 2^level inputs that begin at a place of the
order of binary32 values (92_eei_decisions.md D5; log 3, log 4). -/
opaque Config.exp2fSplit (level : Nat) (place : Int) : Nat

/-- Free: EXP2F of a NaN (D5 says nothing of it; log 4). -/
opaque Config.exp2fNaN (x : F32) : F32

/-- Free: the integer that floor, ceil or trunc gives for a value that is not finite. 00_scope.md R6 defines them for
finite values only, and no run reaches another (log 13). -/
opaque Config.intOfNonFinite (x : F32) : Int

/-- Free: `Wrap` of a value that is not finite; no run reaches it (log 13). -/
opaque Config.wrapOfNonFinite (x : F32) : F32

end Sys2Proof
end

