-- ==== Sys2Proof/Machine/Registers.lean ====
section
/-! DEFINITION. The register groups of the block (spec/10_state.md R20 to R52) and their reset values (R40,
spec/70_reset_and_hazards.md R320). Widths are those of the table in R40. An enumerated field is an inductive type: the
codes R21, R22, R33, R41, R46, R49 call reserved or never occurring are stored by no rule, so no constructor stands for
them; the codes themselves are in Machine/Operands.lean. -/

namespace Sys2Proof.Machine

/-- `state[v]` (R21). -/
inductive PlayState where
  | silent
  | playing
  | suspended
deriving DecidableEq, Repr

/-- `mode[v]` (R22). -/
inductive PlayMode where
  | triggered
  | looped
  | gated
deriving DecidableEq, Repr

/-- `midiMode[v]` (R33). -/
inductive MidiMode where
  | off
  | percussion
  | pitched
deriving DecidableEq, Repr

/-- `encSteps`, the steps per notch (R41). -/
inductive NotchSteps where
  | one
  | two
  | four
deriving DecidableEq, Repr

/-- `encButton` (R46). `closed` is listed and never produced (R125 (e), 92_eei_decisions.md D33). -/
inductive ButtonState where
  | opened
  | closed
  | held
  | released
  | clicked
  | doubleClicked
deriving DecidableEq, Repr

/-- `midiPState` (R49). -/
inductive ParserState where
  | idle
  | ch1
  | ch2
  | meta1
  | meta2
  | metaLen
  | metaPay
deriving DecidableEq, Repr

/-- One voice (R20 to R35). `raced` is the model's own field: the sample word addresses that were written while the
voice was not Suspended, each once (20_memory.md R75 (b), R81; log 6). -/
structure Voice where
  state : PlayState
  mode : PlayMode
  phase : F32
  phaseIncrement : F32
  speed : BitVec 16
  pitchFactor : F32
  transpose : BitVec 8
  level : BitVec 10
  pan : BitVec 11
  midiChannel : BitVec 5
  midiNote : BitVec 7
  nativeNote : BitVec 7
  midiMode : MidiMode
  cvrLevel : BitVec 4
  cvrPan : BitVec 4
  cvrSpeed : BitVec 4
  cvrPitch : BitVec 4
  bufBase : Word
  bufFrames : BitVec 25
  bufChannels : BitVec 8
  raced : List Word
deriving DecidableEq, Repr

/-- The encoder (R41 to R46). -/
structure Encoder where
  /-- encStrategy: false is the two-bit history decode (0), true the 16-entry table decode (1). -/
  strategy : Bool
  accelEn : Bool
  steps : NotchSteps
  dclkEn : Bool
  delta : BitVec 16
  accel : BitVec 16
  hist : BitVec 4
  primed : Bool
  rawA : Bool
  rawB : Bool
  rawBtn : Bool
  keyDown : BitVec 16
  dclk : BitVec 16
  presc : BitVec 16
  button : ButtonState
deriving DecidableEq, Repr

/-- The trigger debouncer (R47). -/
structure Trigger where
  raw : Byte
  cnt : Oct (BitVec 16)
  rise : Byte
  released : Byte
deriving DecidableEq, Repr

/-- The MIDI parser (R49). -/
structure Midi where
  pstate : ParserState
  status : Byte
  data1 : BitVec 7
  metaLeft : BitVec 7
deriving DecidableEq, Repr

/-- The reset state of voice `v` (R40, R320): Suspended, no buffer, midiChannel v + 1. -/
def Voice.reset (v : Fin 8) : Voice where
  state := .suspended
  mode := .triggered
  phase := 0x00000000
  phaseIncrement := 0x00000000
  speed := 1000
  pitchFactor := 0x3F800000
  transpose := 0
  level := 1000
  pan := 0
  midiChannel := BitVec.ofNat 5 (v.val + 1)
  midiNote := 60
  nativeNote := 60
  midiMode := .off
  cvrLevel := 0
  cvrPan := 0
  cvrSpeed := 0
  cvrPitch := 0
  bufBase := 0
  bufFrames := 0
  bufChannels := 0
  raced := []

/-- The reset state of the encoder (R40, R320). -/
def Encoder.reset : Encoder where
  strategy := false
  accelEn := false
  steps := .one
  dclkEn := true
  delta := 0
  accel := 0
  hist := 0
  primed := false
  rawA := false
  rawB := false
  rawBtn := false
  keyDown := 0
  dclk := 0
  presc := 0
  button := .opened

/-- The reset state of the trigger debouncer (R40, R320): every channel released. -/
def Trigger.reset : Trigger where
  raw := 0x00
  cnt := Oct.build (fun _ => 0)
  rise := 0x00
  released := 0xFF

/-- The reset state of the MIDI parser (R40, R320). -/
def Midi.reset : Midi where
  pstate := .idle
  status := 0x00
  data1 := 0
  metaLeft := 0

/-- The reset state of the CV array (R40, R320): +0.0 each. -/
def cvReset : Oct F32 := Oct.build (fun _ => 0x00000000)

end Sys2Proof.Machine
end

