-- ==== Sys2Proof/Machine/State.lean ====
section
/-! DEFINITION. The state of the machine: every register of the block (spec/10_state.md), the queues and streams the
spec names around it, and the model's own fields (`cfg`, `turns`, `draws`, a voice's `raced`); the reasons a step can
stop; the state right after power-on and reset. -/

namespace Sys2Proof.Machine

/-- A CB event waiting in RENDER's queue: its trigger levels T and its read-failure bit (30_encoding.md R94). -/
structure Callback where
  levels : Byte
  failed : Bool
deriving DecidableEq, Repr

/-- Whose turn it is (20_memory.md R72: the order of enabled steps of different agents is free; log 9). -/
inductive Turn where
  /-- The agent of the next event in `inbox` takes its step. -/
  | event
  /-- RENDER takes its next step: a frame, or the prologue of a held CB. -/
  | render
  /-- The sample storage collaborator puts `data` at word address `addr` of sample memory (20_memory.md R81). -/
  | sample (addr data : Word)
deriving DecidableEq, Repr

/-- One `OUT(l, r)` of the audio stream (10_state.md R53). -/
structure OutFrame where
  l : F32
  r : F32
deriving DecidableEq, Repr

/-- One item of the diagnostic stream (10_state.md R53). -/
inductive DiagItem where
  /-- DIAG_BYTE(b); `b` is a MIDI data byte, so it has 7 bits. -/
  | byte (b : BitVec 7)
  /-- DIAG_END. -/
  | done
deriving DecidableEq, Repr

/-- The machine's state. -/
structure State where
  /-- The parameters of 00_scope.md R3; no step writes them (log 1). -/
  cfg : Params
  /-- The voice register file (10_state.md R20). -/
  voices : Oct Voice
  /-- The encoder (10_state.md R41 to R46). -/
  enc : Encoder
  /-- The trigger debouncer (10_state.md R47). -/
  trig : Trigger
  /-- The CV value array (10_state.md R48). -/
  cv : Oct F32
  /-- The MIDI parser (10_state.md R49). -/
  midi : Midi
  /-- A callback is in progress (10_state.md R50). -/
  rBusy : Bool
  /-- The index of the next frame of the callback (10_state.md R50). -/
  rFrame : BitVec 8
  /-- The ERR register (10_state.md R52): bit 0 UNSUSP_NOBUF, bit 1 ILLEGAL_VALUE, bit 2 FROZEN_WRITE. -/
  err : BitVec 3
  /-- Sample memory (20_memory.md R74 (b)). -/
  mem : Memory
  /-- CB events waiting in RENDER's queue, the oldest first (41_trigger.md R150). -/
  held : List Callback
  /-- The words of events that have arrived and are not consumed, the oldest first (30_encoding.md R90, R102). -/
  inbox : List Half
  /-- Whose turns come next; where none is listed, events go first and then RENDER (log 9). -/
  turns : List Turn
  /-- The audio stream emitted so far, the oldest first (10_state.md R53). -/
  audio : List OutFrame
  /-- The diagnostic stream emitted so far, the oldest first (10_state.md R53). -/
  diag : List DiagItem
  /-- The host response channel so far, the oldest first (30_encoding.md R97). -/
  responses : List Word
  /-- How many frame steps have drawn free values (log 5). -/
  draws : Nat
deriving DecidableEq, Repr

/-- Why a step has no next state. -/
inductive Fault where
  /-- Raised by a frame step of RENDER whose SampleRead finds no memory at word address `addr`: "The model's render
  step has no successor (stuck)" (20_memory.md R75 (a), 60_exceptions.md R304). Safe: the spec says it errs toward
  unprovable. -/
  | noSampleMemory (addr : Word)
deriving DecidableEq, Repr

/-- Why an instruction has no meaning. No event of this block is refused (60_exceptions.md R304). -/
inductive Refusal where
  /-- The instruction with this mnemonic has no meaning in the model yet. Raised by no arm of `exec`. Safe. -/
  | notModelled (mnemonic : String)
deriving DecidableEq, Repr

/-- The power-on state with parameters `p` (70_reset_and_hazards.md R322: before its first event the block is in the
reset state of R320). Sample memory lists nothing (log 8); no event has arrived and no stream holds an item. -/
def State.powerOn (p : Params) : State where
  cfg := p
  voices := Oct.build Voice.reset
  enc := Encoder.reset
  trig := Trigger.reset
  cv := cvReset
  midi := Midi.reset
  rBusy := false
  rFrame := 0
  err := 0
  mem := []
  held := []
  inbox := []
  turns := []
  audio := []
  diag := []
  responses := []
  draws := 0

/-- The machine right after reset. -/
def State.reset : State := State.powerOn Config.params

end Sys2Proof.Machine
end

