-- ==== Sys2Proof/Machine/Flags.lean ====
section
/-! DEFINITION. The block has no condition codes. What it has of the kind: the sticky bits of ERR (spec/10_state.md R52,
spec/60_exceptions.md R300, R302), which stand where other machines take exceptions (R301: nothing traps), and the
trigger snapshots, computed whole from the debounce counters (spec/41_trigger.md R151, R154). -/

namespace Sys2Proof.Machine

/-- ERR.UNSUSP_NOBUF, bit 0. -/
def errUnsuspNobuf : BitVec 3 := 0b001
/-- ERR.ILLEGAL_VALUE, bit 1. -/
def errIllegalValue : BitVec 3 := 0b010
/-- ERR.FROZEN_WRITE, bit 2. -/
def errFrozenWrite : BitVec 3 := 0b100

/-- `err.X <- 1` (00_scope.md R7): the sticky bit is set, the others stay. -/
def State.setErr (s : State) (bit : BitVec 3) : State := { s with err := s.err ||| bit }

/-- Write-1-to-clear (45_host.md R243). -/
def State.clearErr (s : State) (d : Word) : State := { s with err := s.err &&& ~~~(d.extractLsb' 0 3) }

/-- trigRise: bit i is 1 when channel i's counter equals the threshold (41_trigger.md R151). -/
def riseBits (p : Params) (cnt : Oct (BitVec 16)) : Byte :=
  (Oct.build fun i => (cnt.get i).toNat == p.debounceThreshold).bits

/-- trigReleased: bit i is 1 when channel i's counter is 0 (41_trigger.md R151). -/
def releasedBits (cnt : Oct (BitVec 16)) : Byte := (Oct.build fun i => cnt.get i == 0).bits

/-- The derived steady bits: counter ≥ threshold (41_trigger.md R154). -/
def steadyBits (p : Params) (cnt : Oct (BitVec 16)) : Byte :=
  (Oct.build fun i => decide (p.debounceThreshold ≤ (cnt.get i).toNat)).bits

end Sys2Proof.Machine
end

