-- ==== Sys2Proof/Machine/Binary32.lean ====
section
/-! DEFINITION. IEEE 754 binary32 arithmetic (spec/00_scope.md R6, spec/92_eei_decisions.md D4) and EXP2F (D5). Every
operation is exact on integers and rounded once, to nearest with ties to even, subnormals kept. The unit is 2^-149, the
smallest positive binary32 value: every finite binary32 value is a whole number of units. A NaN result is the free value
`nan` that the caller hands in (spec/44_mixer.md R219; log 5). -/

namespace Sys2Proof.Machine

/-! ## Fields and classes -/

/-- The exponent field, [30:23]. -/
def expField (x : F32) : Nat := (x.extractLsb' 23 8).toNat

/-- The fraction field, [22:0]. -/
def fracField (x : F32) : Nat := (x.extractLsb' 0 23).toNat

/-- The sign bit. -/
def isNeg (x : F32) : Bool := x.msb

/-- NaN. -/
def isNaN (x : F32) : Bool := expField x == 255 && fracField x != 0

/-- ±∞. -/
def isInf (x : F32) : Bool := expField x == 255 && fracField x == 0

/-- Neither NaN nor infinite. -/
def isFinite (x : F32) : Bool := expField x != 255

/-- |x| in units of 2^-149, for finite x. -/
def magUnits (x : F32) : Nat :=
  if expField x = 0 then fracField x else (2 ^ 23 + fracField x) <<< (expField x - 1)

/-- x in units of 2^-149, for finite x. -/
def units (x : F32) : Int := if isNeg x then -(magUnits x : Int) else magUnits x

/-- 1.0 in units. -/
def oneUnits : Nat := 1 <<< 149

/-- −x: the sign bit flipped. -/
def fneg (x : F32) : F32 := x ^^^ 0x80000000

/-! ## Rounding -/

/-- n / d rounded to the nearest integer, ties to even. -/
def roundQuot (n d : Nat) : Nat :=
  let q := n / d
  let r := n % d
  if 2 * r < d then q else if d < 2 * r then q + 1 else q + q % 2

/-- The bits [30:0] of the binary32 value nearest to n / d units, ties to even; 0x7F800000 (∞) on overflow. Below 2^24
units neighbouring values are one unit apart; above, 2^sh units, sh being the excess of the quotient's bit length over 24. -/
def roundMag (n d : Nat) : Nat :=
  let sh := Nat.log2 (n / d) - 23
  if 254 ≤ sh then 0x7F800000
  else min (sh * 2 ^ 23 + roundQuot n (d <<< sh)) 0x7F800000

/-- A binary32 value from its sign and its bits [30:0]. -/
def pack (neg : Bool) (mag : Nat) : F32 := BitVec.ofNat 32 (if neg then 2 ^ 31 + mag else mag)

/-! ## Arithmetic -/

/-- `add(a, b)`. An exact zero sum is +0.0 but for −0.0 + −0.0. -/
def fadd (nan a b : F32) : F32 :=
  if isNaN a || isNaN b then nan
  else if isInf a then (if isInf b && isNeg a != isNeg b then nan else a)
  else if isInf b then b
  else
    let t := units a + units b
    if t = 0 then pack (isNeg a && isNeg b) 0 else pack (decide (t < 0)) (roundMag t.natAbs 1)

/-- `sub(a, b)`. -/
def fsub (nan a b : F32) : F32 := fadd nan a (fneg b)

/-- `mul(a, b)`. 0 × ∞ is invalid. -/
def fmul (nan a b : F32) : F32 :=
  let neg := isNeg a != isNeg b
  if isNaN a || isNaN b then nan
  else if isInf a then (if isFinite b && magUnits b == 0 then nan else pack neg 0x7F800000)
  else if isInf b then (if magUnits a == 0 then nan else pack neg 0x7F800000)
  else pack neg (roundMag (magUnits a * magUnits b) oneUnits)

/-- `div(a, b)`. 0 / 0 and ∞ / ∞ are invalid; another value over 0 is infinite. -/
def fdiv (nan a b : F32) : F32 :=
  let neg := isNeg a != isNeg b
  if isNaN a || isNaN b then nan
  else if isInf a then (if isInf b then nan else pack neg 0x7F800000)
  else if isInf b then pack neg 0
  else if magUnits b = 0 then (if magUnits a = 0 then nan else pack neg 0x7F800000)
  else pack neg (roundMag (magUnits a * oneUnits) (magUnits b))

/-- `flt(n)`: an integer as binary32. -/
def flt (n : Int) : F32 := pack (decide (n < 0)) (roundMag (n.natAbs * oneUnits) 1)

/-! ## Integer parts and comparisons -/

/-- `floor(x)`; a free integer where x is not finite (log 13). -/
def ffloor (x : F32) : Int :=
  if isFinite x then units x / (oneUnits : Int) else Config.intOfNonFinite x

/-- `ceil(x)`; a free integer where x is not finite (log 13). -/
def fceil (x : F32) : Int :=
  if isFinite x then -(-units x / (oneUnits : Int)) else Config.intOfNonFinite x

/-- `trunc(x)`, toward zero; a free integer where x is not finite (log 13). -/
def ftrunc (x : F32) : Int :=
  if isFinite x then
    (if isNeg x then -((magUnits x / oneUnits : Nat) : Int) else (magUnits x / oneUnits : Nat))
  else Config.intOfNonFinite x

/-- The place of a value that is not NaN in the order of binary32 values: ±0 at 0, neighbours one apart. -/
def place (x : F32) : Int :=
  let m : Int := ((x.toNat % 2 ^ 31 : Nat) : Int)
  if isNeg x then -m else m

/-- The value at a place (+0.0 at 0). -/
def ofPlace (n : Int) : F32 := pack (decide (n < 0)) n.natAbs

/-- a < b; false where either is NaN, and −0.0 equals +0.0 (R6). -/
def fLt (a b : F32) : Bool := !isNaN a && !isNaN b && decide (place a < place b)

/-- a ≤ b; false where either is NaN. -/
def fLe (a b : F32) : Bool := !isNaN a && !isNaN b && decide (place a ≤ place b)

/-! ## Constants -/

/-- 1.0 -/
def f1 : F32 := 0x3F800000
/-- 0.5 -/
def fHalf : F32 := 0x3F000000
/-- 2.0 -/
def f2 : F32 := 0x40000000
/-- 5.0 -/
def f5 : F32 := 0x40A00000
/-- 12.0 -/
def f12 : F32 := 0x41400000
/-- 1000.0 -/
def f1000 : F32 := 0x447A0000
/-- 2000.0 -/
def f2000 : F32 := 0x44FA0000
/-- 65536.0 -/
def f65536 : F32 := 0x47800000
/-- +0.0 -/
def f0 : F32 := 0x00000000

/-! ## NaN results -/

/-- The NaN that an operation answers: any NaN at all (R219), drawn with the counter, the voice and the place of the
operation in the step (log 5). -/
def freeNaN (draw voice site : Nat) : F32 :=
  let x := Config.nanBits draw voice site
  if isNaN x then x else 0x7FC00000

/-! ## EXP2F (92_eei_decisions.md D5)

A function with exactly the properties D5 assumes: (a) 2^k for every integer k in −126..127; (b) positive for finite
t ≥ −126; (c) monotone non-decreasing. Between two integers the values lie between the two powers of two, and free
values say how they are spread there; every function with (a) to (c) is one of these (log 3). -/

/-- 2^k for −126 ≤ k ≤ 127. -/
def pow2 (k : Int) : F32 := pack false ((k + 127).toNat * 2 ^ 23)

/-- A free value between `lo` and `hi`, for the block of 2^level inputs that begins at place `base`. -/
def exp2fBetween (level : Nat) (lo hi base : Int) : Int := lo + (Config.exp2fSplit level base : Int) % (hi - lo + 1)

/-- The place of the value at the `n`-th of the 2^level inputs from place `base` on, all their values lying between
`lo` and `hi`. A free value splits [lo, hi] between the lower and the upper half of the inputs. -/
def exp2fBlock (level : Nat) (lo hi base : Int) (n : Nat) : Int :=
  match level with
  | 0 => exp2fBetween 0 lo hi base
  | k + 1 =>
    if n < 2 ^ k then exp2fBlock k lo (exp2fBetween (k + 1) lo hi base) base n
    else exp2fBlock k (exp2fBetween (k + 1) lo hi base) hi (base + 2 ^ k) (n - 2 ^ k)

/-- The value at an input of place `p`, `base` ≤ p < base + 2^30, between the values of places `lo` and `hi`. -/
def exp2fFrom (lo hi base p : Int) : F32 := ofPlace (exp2fBlock 30 lo hi base (p - base).toNat)

/-- EXP2F. Outside −126 ≤ t ≤ 127 only (c) binds it, and of a NaN D5 says nothing (log 4). -/
def exp2f (t : F32) : F32 :=
  if isNaN t then Config.exp2fNaN t
  else if fLt (flt 127) t then exp2fFrom (place (pow2 127)) 0x7F800000 (place (flt 127)) (place t)
  else if fLt t (flt (-126)) then exp2fFrom (-0x7F800000) (place (pow2 (-126))) (-0x7F800000) (place t)
  else
    let k := ffloor t
    if place t = place (flt k) then pow2 k
    else exp2fFrom (place (pow2 k)) (place (pow2 (k + 1))) (place (flt k)) (place t)

end Sys2Proof.Machine
end

