-- ==== Sys2Proof/Machine/Operands.lean ====
section
/-! DEFINITION. Operand assembly (spec/30_encoding.md R98, R99): how a write's data word becomes a field, how a field
becomes a response word, and the codes of the enumerations (spec/10_state.md R21, R22, R33, R41, R46, R49). -/

namespace Sys2Proof.Machine

/-! ## Reading: fields as 32-bit words (R99) -/

/-- `zext_32` (00_scope.md R5). -/
def zext32 {n : Nat} (x : BitVec n) : Word := x.setWidth 32

/-- `sext_32` (00_scope.md R5). -/
def sext32 {n : Nat} (x : BitVec n) : Word := x.signExtend 32

/-- Code of `state` (10_state.md R21). -/
def playStateCode (x : PlayState) : BitVec 2 :=
  match x with
  | .silent => 0
  | .playing => 1
  | .suspended => 2

/-- Code of `mode` (10_state.md R22). -/
def playModeCode (x : PlayMode) : BitVec 2 :=
  match x with
  | .triggered => 0
  | .looped => 1
  | .gated => 2

/-- Code of `midiMode` (10_state.md R33). -/
def midiModeCode (x : MidiMode) : BitVec 2 :=
  match x with
  | .off => 0
  | .percussion => 1
  | .pitched => 2

/-- Code of `encSteps` (10_state.md R40, R41). -/
def notchStepsCode (x : NotchSteps) : BitVec 2 :=
  match x with
  | .one => 0
  | .two => 1
  | .four => 2

/-- Code of `encButton` (10_state.md R46). -/
def buttonCode (x : ButtonState) : BitVec 3 :=
  match x with
  | .opened => 0
  | .closed => 1
  | .held => 2
  | .released => 3
  | .clicked => 4
  | .doubleClicked => 5

/-- Code of `midiPState` (10_state.md R49). -/
def parserCode (x : ParserState) : BitVec 3 :=
  match x with
  | .idle => 0
  | .ch1 => 1
  | .ch2 => 2
  | .meta1 => 3
  | .meta2 => 4
  | .metaLen => 5
  | .metaPay => 6

/-! ## Writing: the data word as a field (R98) -/

/-- The enumerated `state` code in all of D; none for 3 and above. -/
def playStateOf (d : Word) : Option PlayState :=
  match d.toNat with
  | 0 => some .silent
  | 1 => some .playing
  | 2 => some .suspended
  | _ => none

/-- The enumerated `mode` code in all of D; none for 3 and above. -/
def playModeOf (d : Word) : Option PlayMode :=
  match d.toNat with
  | 0 => some .triggered
  | 1 => some .looped
  | 2 => some .gated
  | _ => none

/-- The enumerated `midiMode` code in all of D; none for 3 and above. -/
def midiModeOf (d : Word) : Option MidiMode :=
  match d.toNat with
  | 0 => some .off
  | 1 => some .percussion
  | 2 => some .pitched
  | _ => none

/-- The STEPS code of ENC_CTRL; none for the reserved code 3 (45_host.md R241). -/
def notchStepsOf (c : BitVec 2) : Option NotchSteps :=
  match c.toNat with
  | 0 => some .one
  | 1 => some .two
  | 2 => some .four
  | _ => none

/-- A signed field: D as s32, clamped. -/
def signedOperand (n : Nat) (lo hi : Int) (d : Word) : BitVec n := BitVec.ofInt n (clampInt d.toInt lo hi)

/-- An unsigned field: D as u32, clamped. -/
def unsignedOperand (n : Nat) (lo hi : Nat) (d : Word) : BitVec n := BitVec.ofNat n (min (max d.toNat lo) hi)

/-- V.SPEED (45_host.md R252). -/
def speedOperand (d : Word) : BitVec 16 := signedOperand 16 (-32768) 32767 d
/-- V.TRANSPOSE (45_host.md R254). -/
def transposeOperand (d : Word) : BitVec 8 := signedOperand 8 (-128) 127 d
/-- V.LEVEL (45_host.md R255). -/
def levelOperand (d : Word) : BitVec 10 := unsignedOperand 10 0 1000 d
/-- V.PAN (45_host.md R256). -/
def panOperand (d : Word) : BitVec 11 := signedOperand 11 (-1000) 1000 d
/-- V.MIDICH (45_host.md R257). -/
def midiChannelOperand (d : Word) : BitVec 5 := unsignedOperand 5 1 16 d
/-- V.MIDINOTE and V.NATIVENOTE (45_host.md R258, R259). -/
def noteOperand (d : Word) : BitVec 7 := unsignedOperand 7 0 127 d
/-- V.CVR_* (45_host.md R261 to R264). -/
def routeOperand (d : Word) : BitVec 4 := unsignedOperand 4 0 8 d
/-- V.BUF_FRAMES (45_host.md R266). -/
def bufFramesOperand (d : Word) : BitVec 25 := unsignedOperand 25 0 (2 ^ 24) d
/-- V.BUF_CHANNELS (45_host.md R267). -/
def bufChannelsOperand (d : Word) : BitVec 8 := unsignedOperand 8 0 255 d

/-- V.PITCHF (45_host.md R253): finite and of magnitude at most 65536.0; none otherwise. -/
def pitchOperand (d : Word) : Option F32 :=
  if isFinite d && fLe (d &&& 0x7FFFFFFF) f65536 then some d else none

/-- CV[k] (45_host.md R246): NaN and values ≤ 0 give +0.0, values ≥ 1 give 1.0. -/
def cvOperand (d : Word) : F32 :=
  if isNaN d || fLe d f0 then f0
  else if fLe f1 d then f1
  else d

end Sys2Proof.Machine
end

