-- ==== Sys2Proof/Machine/Ops.lean ====
section
/-! DEFINITION. The named operations over the state that the meanings share. The block takes no exception and returns
from none (spec/60_exceptions.md R301): an error is a sticky bit (Flags.lean) and the step completes. -/

namespace Sys2Proof.Machine

/-- What a meaning answers. -/
abbrev Result := Host.Outcome State Fault Refusal

/-- `respond(w)`: one word on the host response channel (00_scope.md R7, 30_encoding.md R97). -/
def State.respond (s : State) (w : Word) : State := { s with responses := s.responses ++ [w] }

/-- `emit OUT(l, r)` (00_scope.md R7, 20_memory.md R82). -/
def State.emitOut (s : State) (l r : F32) : State := { s with audio := s.audio ++ [⟨l, r⟩] }

/-- `emit DIAG_BYTE(b)` or `emit DIAG_END` (00_scope.md R7). -/
def State.emitDiag (s : State) (x : DiagItem) : State := { s with diag := s.diag ++ [x] }

/-- The state with voice `v` replaced. -/
def State.setVoice (s : State) (v : Fin 8) (x : Voice) : State := { s with voices := s.voices.set v x }

/-- Every voice replaced by `f` of its index and itself: `for v in 0..7` over writes that touch voice v only. -/
def State.mapVoices (s : State) (f : Fin 8 → Voice → Voice) : State :=
  { s with voices := Oct.build fun v => f v (s.voices.get v) }

/-- The state with another encoder. -/
def State.setEnc (s : State) (e : Encoder) : State := { s with enc := e }

/-- The state with another MIDI parser. -/
def State.setMidi (s : State) (m : Midi) : State := { s with midi := m }

/-- The state with CV value `k` replaced. -/
def State.setCv (s : State) (k : Fin 8) (x : F32) : State := { s with cv := s.cv.set k x }

/-- A voice is bound: it has a buffer (10_state.md R36). -/
def Voice.bound (x : Voice) : Bool := x.bufFrames != 0 && x.bufChannels != 0

/-- `x` with state `st`. A voice that becomes Suspended starts a new swap of its samples: no word is raced for it
(20_memory.md R75 (c); log 6). -/
def Voice.withState (x : Voice) (st : PlayState) : Voice :=
  { x with state := st, raced := if st = .suspended then [] else x.raced }

/-- The reset state of R320 in every register. What is not the block's register state stays: sample memory and the
parameters (R320), the items already emitted (R321 (b)), the responses (R321 (d)), the events not consumed and the held
CB events (R321 (c)). -/
def State.resetRegisters (s : State) : State :=
  { s with
    voices := Oct.build Voice.reset
    enc := Encoder.reset
    trig := Trigger.reset
    cv := cvReset
    midi := Midi.reset
    rBusy := false
    rFrame := 0
    err := 0 }

/-- A write the host may not make to this register: ignored, with no error (45_host.md R296). -/
def State.ignoreWrite (s : State) (_d : Word) : State := s

/-! ## Sample memory as its owner changes it (20_memory.md R75, R81) -/

/-- `x` after word `a` of sample memory was written: unless Suspended, a later read of the word races with the write. -/
def Voice.noteWrite (x : Voice) (a : Word) : Voice :=
  if x.state = .suspended || x.raced.contains a then x else { x with raced := a :: x.raced }

/-- The sample storage collaborator puts `d` at word `a`. Every write outside the protocol of R81 is a race, also one of
the value that the word already has. -/
def State.storeSample (s : State) (a d : Word) : State :=
  { (s.mapVoices fun _ x => x.noteWrite a) with mem := writeWord s.mem a d }

end Sys2Proof.Machine
end

