-- ==== Sys2Proof/Machine/Trigger.lean ====
section
/-! DEFINITION. The trigger/gate debouncer (spec/41_trigger.md R151). -/

namespace Sys2Proof.Machine

/-- One channel's counter after a callback that sees the level `active` (R151). -/
def debounceCount (p : Params) (active : Bool) (n : BitVec 16) : BitVec 16 :=
  if active then BitVec.ofNat 16 (min (n.toNat + 1) (p.debounceThreshold + 1)) else 0

/-- Debounce(T) (R151), with trigRaw set to the levels used (R150). -/
def debounce (p : Params) (levels : Byte) (t : Trigger) : Trigger :=
  let cnt := Oct.build fun i => debounceCount p (levels.getLsbD i.val) (t.cnt.get i)
  { raw := levels, cnt := cnt, rise := riseBits p cnt, released := releasedBits cnt }

end Sys2Proof.Machine
end

