-- ==== Sys2Proof/Machine/Voice.lean ====
section
/-! DEFINITION. The voice state machine (spec/43_voice.md): CV application, restart, mode evaluation; and the phase
increment they share with the mixer (spec/44_mixer.md R212). `nan` is the value of a NaN result (log 5). -/

namespace Sys2Proof.Machine

/-- The semitone offset e of R212: an exact integer. -/
def semitones (x : Voice) : Int := (x.midiNote.toNat : Int) - x.nativeNote.toNat + x.transpose.toInt

/-- Increment(v) (44_mixer.md R212), left to right, each operation rounded. -/
def increment (nan : F32) (x : Voice) : F32 :=
  let g := exp2f (fdiv nan (flt (semitones x)) f12)
  fdiv nan (fmul nan (fmul nan (fdiv nan (flt x.speed.toInt) f1000) x.pitchFactor) g) (flt x.bufFrames.toNat)

/-- Restart(v) (R197): the start of the buffer in the direction of travel, and Playing. -/
def restart (nan : F32) (x : Voice) : Voice :=
  { x with phase := if fLt (increment nan x) f0 then f1 else f0, state := .playing }

/-! ## CV application -/

/-- CVLevel (R191). -/
def cvLevel (nan c : F32) : BitVec 10 := BitVec.ofInt 10 (clampInt (ftrunc (fmul nan c f1000)) 0 1000)

/-- CVPan (R192). -/
def cvPan (nan c : F32) : BitVec 11 :=
  BitVec.ofInt 11 (clampInt (ftrunc (fmul nan c f2000) - 1000) (-1000) 1000)

/-- CVSpeed (R193). -/
def cvSpeed (p : Params) (nan c : F32) : BitVec 16 :=
  BitVec.ofInt 16 (clampInt
    (ftrunc (fadd nan (flt p.speedCvMin) (fmul nan c (flt (p.speedCvMax - p.speedCvMin))))) (-32768) 32767)

/-- CVPitch (R194): exp2f(5c − 2). -/
def cvPitch (nan c : F32) : F32 := exp2f (fsub nan (fmul nan f5 c) f2)

/-- The CV value that a route r in 1..8 selects: channel r − 1 (R190 (a), 10_state.md R34). -/
def routed (cv : Oct F32) (r : BitVec 4) : F32 := cv.get (Fin.ofNat 8 (r.toNat - 1))

/-- CVApply for one voice (R190). -/
def cvApplyVoice (p : Params) (cv : Oct F32) (nan : F32) (x : Voice) : Voice :=
  if x.state = .suspended then x
  else
    { x with
      level := if x.cvrLevel = 0 then x.level else cvLevel nan (routed cv x.cvrLevel)
      pan := if x.cvrPan = 0 then x.pan else cvPan nan (routed cv x.cvrPan)
      speed := if x.cvrSpeed = 0 then x.speed else cvSpeed p nan (routed cv x.cvrSpeed)
      pitchFactor := if x.cvrPitch = 0 then x.pitchFactor else cvPitch nan (routed cv x.cvrPitch) }

/-- CVApply (R190). -/
def cvApply (s : State) : State :=
  s.mapVoices fun v x => cvApplyVoice s.cfg s.cv (freeNaN s.draws v.val 0) x

/-! ## Mode evaluation -/

/-- TriggeredEval (R203). -/
def triggeredEval (nan : F32) (rise : Bool) (x : Voice) : Voice := if rise then restart nan x else x

/-- GatedEval (R201). -/
def gatedEval (nan : F32) (rise released : Bool) (x : Voice) : Voice :=
  if rise then restart nan x else if released then { x with state := .silent } else x

/-- LoopedEval (R202): the phase is not changed. -/
def loopedEval (x : Voice) : Voice := { x with state := .playing }

/-- ModeEval for one voice (R200). -/
def modeEvalVoice (nan : F32) (rise released : Bool) (x : Voice) : Voice :=
  if x.state = .suspended then x
  else
    match x.mode with
    | .triggered => triggeredEval nan rise x
    | .gated => gatedEval nan rise released x
    | .looped => loopedEval x

/-- ModeEval (R200): voice v reads trigger channel v. -/
def modeEval (s : State) : State :=
  s.mapVoices fun v x =>
    modeEvalVoice (freeNaN s.draws v.val 0) (s.trig.rise.getLsbD v.val) (s.trig.released.getLsbD v.val) x

end Sys2Proof.Machine
end

