-- ==== Sys2Proof/Machine/Callback.lean ====
section
/-! DEFINITION. The audio callback's prologue (spec/41_trigger.md R150) and the hold of a CB event that arrives while
a callback is in progress. -/

namespace Sys2Proof.Machine

/-- The trigger levels a prologue uses: those of the latest good read where this one failed (R150). -/
def callbackLevels (s : State) (levels : Byte) (failed : Bool) : Byte := if failed then s.trig.raw else levels

/-- CALLBACK(T, e) (R150): debounce, then CV application, then mode evaluation; frame steps are enabled. -/
def prologue (levels : Byte) (failed : Bool) (s : State) : State :=
  let s' := { s with trig := debounce s.cfg (callbackLevels s levels failed) s.trig }
  { modeEval (cvApply s') with rBusy := true, rFrame := 0 }

/-- A CB event reaches RENDER: it is accepted, or it waits in RENDER's queue while a callback is in progress or an
earlier CB waits (R150, 60_exceptions.md R304; log 11). -/
def acceptCallback (levels : Byte) (failed : Bool) (s : State) : State :=
  if s.rBusy || !s.held.isEmpty then { s with held := s.held ++ [⟨levels, failed⟩] }
  else prologue levels failed s

/-- CB t (R150). -/
def execCb (t : Byte) (s : State) : Result := .next (acceptCallback t false s)

/-- CB! (R150): the trigger read failed, so the levels in the header are not used. -/
def execCbFail (s : State) : Result := .next (acceptCallback 0 true s)

end Sys2Proof.Machine
end

