-- ==== Sys2Proof/Machine/Encoder.lean ====
section
/-! DEFINITION. The quadrature encoder decoder and its button (spec/40_encoder.md): the TICK step and the two reads that
consume. -/

namespace Sys2Proof.Machine

/-- PinSample (R121): a failed read keeps the last valid levels. After it `rawA`, `rawB`, `rawBtn` are the levels the
tick uses. -/
def pinSample (a b btn failed : Bool) (c : Encoder) : Encoder :=
  if failed then c else { c with rawA := a, rawB := b, rawBtn := btn }

/-- AccelDecay (R124): underflow is seen as bit 15 set. -/
def accelDecay (p : Params) (c : Encoder) : Encoder :=
  let t := c.accel - BitVec.ofNat 16 p.accelDec
  { c with accel := if t.msb then 0 else t }

/-- AccelBump (R124). -/
def accelBump (p : Params) (c : Encoder) : Encoder :=
  { c with accel := BitVec.ofNat 16 (min (c.accel.toNat + p.accelInc) p.accelTop) }

/-- The two-bit code of the pins (R122): (A,B) = 00, 01, 11, 10 give 0, 1, 2, 3. -/
def grayCode (a b : Bool) : BitVec 4 := (if a then 3 else 0) ^^^ (if b then 1 else 0)

/-- Decode2 (R122): the encoder after, and whether a step occurred. -/
def decode2 (a b : Bool) (c : Encoder) : Encoder × Bool :=
  let code := grayCode a b
  if !c.primed then ({ c with hist := code, primed := true }, false)
  else
    let diff : BitVec 8 := (c.hist.extractLsb' 0 2).setWidth 8 - code.setWidth 8
    if diff.getLsbD 0 then
      ({ c with hist := code, delta := c.delta + ((diff &&& 2).setWidth 16 - 1) }, true)
    else (c, false)

/-- TABLE of R123, indexed by the 4-bit history. -/
def quadTable : List Int := [0, 1, -1, 0, -1, 0, 0, 1, 1, 0, 0, -1, 0, -1, 1, 0]

/-- `raw` of R123: A·2 + B. -/
def rawCode (a b : Bool) : BitVec 2 := BitVec.ofBool a ++ BitVec.ofBool b

/-- Decode16 (R123): the encoder after, and whether a step occurred. -/
def decode16 (a b : Bool) (c : Encoder) : Encoder × Bool :=
  let raw := rawCode a b
  if !c.primed then ({ c with hist := raw ++ raw, primed := true }, false)
  else
    let hist : BitVec 4 := c.hist.extractLsb' 0 2 ++ raw
    let step := quadTable.getD hist.toNat 0
    if step = 0 then ({ c with hist := hist }, false)
    else ({ c with hist := hist, delta := c.delta + BitVec.ofInt 16 step }, true)

/-- The decoder that ENC_CTRL selects (R120, 10_state.md R41). -/
def decodePins (c : Encoder) : Encoder × Bool :=
  if c.strategy then decode16 c.rawA c.rawB c else decode2 c.rawA c.rawB c

/-- The release half of ButtonCheck (R125): a button check that sees the button up. -/
def buttonUp (p : Params) (c : Encoder) : Encoder :=
  let c' :=
    if c.keyDown = 0 then c
    else if c.button = .held then { c with button := .released, dclk := 0 }
    else if c.dclk ≠ 0 ∧ c.dclkEn = true then { c with button := .doubleClicked, dclk := 0 }
    else { c with dclk := if c.dclkEn then BitVec.ofNat 16 p.doubleClickTicks else 1 }
  { c' with keyDown := 0 }

/-- The press half of ButtonCheck (R125): a button check that sees the button down. -/
def buttonDown (p : Params) (c : Encoder) : Encoder :=
  let n := min (c.keyDown.toNat + 1) (p.holdTicks + 1)
  { c with keyDown := BitVec.ofNat 16 n, button := if p.holdTicks < n then .held else c.button }

/-- The window countdown of ButtonCheck (R125), at every check. -/
def windowCountdown (c : Encoder) : Encoder :=
  if c.dclk = 0 then c
  else { c with dclk := c.dclk - 1, button := if c.dclk - 1 = 0 then .clicked else c.button }

/-- ButtonCheck (R125). -/
def buttonCheck (p : Params) (c : Encoder) : Encoder :=
  windowCountdown (if c.rawBtn then buttonDown p c else buttonUp p c)

/-- Prescale (R126). -/
def prescale (p : Params) (c : Encoder) : Encoder :=
  if p.buttonCheckInterval ≤ c.presc.toNat + 1 then buttonCheck p { c with presc := 0 }
  else { c with presc := c.presc + 1 }

/-- TICK (R120), in the rule's order: pin sample, decay, decode, bump on a step, prescaler. -/
def tickEncoder (p : Params) (a b btn failed : Bool) (c : Encoder) : Encoder :=
  let d := decodePins (accelDecay p (pinSample a b btn failed c))
  prescale p (if d.2 then accelBump p d.1 else d.1)

/-- TICK a b btn (R120). -/
def execTick (a b btn : Bool) (s : State) : Result := .next (s.setEnc (tickEncoder s.cfg a b btn false s.enc))

/-- TICK! (R120, R121): the read failed, so the levels in the header are not used. -/
def execTickFail (s : State) : Result := .next (s.setEnc (tickEncoder s.cfg false false false true s.enc))

/-! ## ENC_VALUE and ENC_BUTTON (R131, R132) -/

/-- log2 of the steps per notch (R131). -/
def notchShift (x : NotchSteps) : Nat :=
  match x with
  | .one => 0
  | .two => 1
  | .four => 2

/-- steps − 1 as a mask (R131). -/
def notchMask (x : NotchSteps) : BitVec 16 :=
  match x with
  | .one => 0
  | .two => 1
  | .four => 3

/-- The result `r` of ReadEncValue (R131), as s16. -/
def encValue (c : Encoder) : BitVec 16 :=
  let q := c.delta.sshiftRight (notchShift c.steps)
  let m : BitVec 16 := 1 + (if c.accelEn then c.accel >>> 8 else 0)
  if q.slt 0 then -m else if q = 0 then 0 else m

/-- RD ENC_VALUE (R131): the residue below one notch stays. -/
def execRdEncValue (s : State) : Result :=
  .next ((s.setEnc { s.enc with delta := s.enc.delta &&& notchMask s.enc.steps }).respond (sext32 (encValue s.enc)))

/-- RD ENC_BUTTON (R132): the state goes back to Open unless it is Held. -/
def execRdEncButton (s : State) : Result :=
  .next ((s.setEnc { s.enc with button := if s.enc.button = .held then .held else .opened }).respond
    (zext32 (buttonCode s.enc.button)))

end Sys2Proof.Machine
end

