-- ==== Sys2Proof/Machine/HostRegs.lean ====
section
/-! DEFINITION. Host accesses outside the voice file (spec/45_host.md R240 to R249, R269 to R272, R295 to R297;
spec/40_encoder.md R133 to R139), the reset event (spec/70_reset_and_hazards.md R321) and the reserved ports
(spec/30_encoding.md R96). ENC_VALUE and ENC_BUTTON reads are in Encoder.lean. -/

namespace Sys2Proof.Machine

/-! ## Reset and reserved ports -/

/-- RESET (70_reset_and_hazards.md R321). -/
def execReset (s : State) : Result := .next s.resetRegisters

/-- Port 101: consumed, no effect (30_encoding.md R96). -/
def execReservedPort5 (s : State) : Result := .next s
/-- Port 110: consumed, no effect (30_encoding.md R96). -/
def execReservedPort6 (s : State) : Result := .next s
/-- Port 111: consumed, no effect (30_encoding.md R96). -/
def execReservedPort7 (s : State) : Result := .next s

/-! ## Reserved addresses -/

/-- An access to a reserved address: a read answers 0, a write is ignored with no error (R295). -/
def execReservedAccess (w : Bool) (_a : BitVec 12) (d : Word) (s : State) : Result :=
  if w then .next (s.ignoreWrite d) else .next (s.respond 0)

/-! ## Global registers -/

/-- RD ERR (R242). -/
def execRdErr (s : State) : Result := .next (s.respond (zext32 s.err))

/-- WR ERR, write-1-to-clear (R243). -/
def execWrErr (d : Word) (s : State) : Result := .next (s.clearErr d)

/-- RD RSTAT (R244): BUSY in bit 0, FRAME in bits [15:8]. -/
def execRdRstat (s : State) : Result :=
  .next (s.respond (zext32 (s.rFrame ++ (0 : BitVec 7) ++ BitVec.ofBool s.rBusy)))

/-- WR RSTAT: read-only (R296). -/
def execWrRstat (d : Word) (s : State) : Result := .next (s.ignoreWrite d)

/-! ## Encoder registers -/

/-- The bits of ENC_CTRL (R240): [0] STRATEGY, [1] ACCEL_EN, [3:2] STEPS, [4] DCLK_EN. -/
def encCtrlBits (c : Encoder) : BitVec 5 :=
  BitVec.ofBool c.dclkEn ++ notchStepsCode c.steps ++ BitVec.ofBool c.accelEn ++ BitVec.ofBool c.strategy

/-- RD ENC_CTRL (R240). -/
def execRdEncCtrl (s : State) : Result := .next (s.respond (zext32 (encCtrlBits s.enc)))

/-- The encoder after an ENC_CTRL write (R241). A change of STRATEGY unprimes the history; the reserved STEPS code
keeps STEPS. -/
def writeEncCtrl (d : Word) (c : Encoder) : Encoder :=
  { c with
    strategy := d.getLsbD 0
    primed := if d.getLsbD 0 = c.strategy then c.primed else false
    accelEn := d.getLsbD 1
    steps := match notchStepsOf (d.extractLsb' 2 2) with
      | some x => x
      | none => c.steps
    dclkEn := d.getLsbD 4 }

/-- WR ENC_CTRL (R241): the other fields are written also where the STEPS code is illegal. -/
def execWrEncCtrl (d : Word) (s : State) : Result :=
  let s' := s.setEnc (writeEncCtrl d s.enc)
  match notchStepsOf (d.extractLsb' 2 2) with
  | some _ => .next s'
  | none => .next (s'.setErr errIllegalValue)

/-- WR ENC_VALUE: read-clear, writes are ignored (R296). -/
def execWrEncValue (d : Word) (s : State) : Result := .next (s.ignoreWrite d)
/-- WR ENC_BUTTON: read-clear, writes are ignored (R296). -/
def execWrEncButton (d : Word) (s : State) : Result := .next (s.ignoreWrite d)
/-- RD ENC_DELTA (40_encoder.md R133). -/
def execRdEncDelta (s : State) : Result := .next (s.respond (sext32 s.enc.delta))
/-- WR ENC_DELTA: read-only (R296). -/
def execWrEncDelta (d : Word) (s : State) : Result := .next (s.ignoreWrite d)
/-- RD ENC_ACCEL (40_encoder.md R134). -/
def execRdEncAccel (s : State) : Result := .next (s.respond (zext32 s.enc.accel))
/-- WR ENC_ACCEL: read-only (R296). -/
def execWrEncAccel (d : Word) (s : State) : Result := .next (s.ignoreWrite d)

/-- The bits of ENC_HIST (40_encoder.md R135): BTN, B, A, PRIMED, history. -/
def encHistBits (c : Encoder) : BitVec 8 :=
  BitVec.ofBool c.rawBtn ++ BitVec.ofBool c.rawB ++ BitVec.ofBool c.rawA ++ BitVec.ofBool c.primed ++ c.hist

/-- RD ENC_HIST (40_encoder.md R135). -/
def execRdEncHist (s : State) : Result := .next (s.respond (zext32 (encHistBits s.enc)))
/-- WR ENC_HIST: read-only (R296). -/
def execWrEncHist (d : Word) (s : State) : Result := .next (s.ignoreWrite d)
/-- RD ENC_KEYDOWN (40_encoder.md R136). -/
def execRdEncKeydown (s : State) : Result := .next (s.respond (zext32 s.enc.keyDown))
/-- WR ENC_KEYDOWN: read-only (R296). -/
def execWrEncKeydown (d : Word) (s : State) : Result := .next (s.ignoreWrite d)
/-- RD ENC_DCLK (40_encoder.md R137). -/
def execRdEncDclk (s : State) : Result := .next (s.respond (zext32 s.enc.dclk))
/-- WR ENC_DCLK: read-only (R296). -/
def execWrEncDclk (d : Word) (s : State) : Result := .next (s.ignoreWrite d)
/-- RD ENC_PRESC (40_encoder.md R138). -/
def execRdEncPresc (s : State) : Result := .next (s.respond (zext32 s.enc.presc))
/-- WR ENC_PRESC: read-only (R296). -/
def execWrEncPresc (d : Word) (s : State) : Result := .next (s.ignoreWrite d)
/-- RD ENC_BTNPEEK (40_encoder.md R139): the button state, not cleared. -/
def execRdEncBtnpeek (s : State) : Result := .next (s.respond (zext32 (buttonCode s.enc.button)))
/-- WR ENC_BTNPEEK: read-only (R296). -/
def execWrEncBtnpeek (d : Word) (s : State) : Result := .next (s.ignoreWrite d)

/-! ## Trigger registers -/

/-- RD TRIG_RAW (R247). -/
def execRdTrigRaw (s : State) : Result := .next (s.respond (zext32 s.trig.raw))
/-- WR TRIG_RAW: read-only (R296). -/
def execWrTrigRaw (d : Word) (s : State) : Result := .next (s.ignoreWrite d)
/-- RD TRIG_RISE (R248): the edge is not consumed. -/
def execRdTrigRise (s : State) : Result := .next (s.respond (zext32 s.trig.rise))
/-- WR TRIG_RISE: read-only (R296). -/
def execWrTrigRise (d : Word) (s : State) : Result := .next (s.ignoreWrite d)
/-- RD TRIG_RELEASED (R249). -/
def execRdTrigReleased (s : State) : Result := .next (s.respond (zext32 s.trig.released))
/-- WR TRIG_RELEASED: read-only (R296). -/
def execWrTrigReleased (d : Word) (s : State) : Result := .next (s.ignoreWrite d)
/-- RD TRIG_STEADY (R269). -/
def execRdTrigSteady (s : State) : Result := .next (s.respond (zext32 (steadyBits s.cfg s.trig.cnt)))
/-- WR TRIG_STEADY: read-only (R296). -/
def execWrTrigSteady (d : Word) (s : State) : Result := .next (s.ignoreWrite d)
/-- RD TRIG_CNT[i] (R270). -/
def execRdTrigCnt (i : Fin 8) (s : State) : Result := .next (s.respond (zext32 (s.trig.cnt.get i)))
/-- WR TRIG_CNT[i]: read-only (R296). -/
def execWrTrigCnt (_i : Fin 8) (d : Word) (s : State) : Result := .next (s.ignoreWrite d)

/-! ## CV registers -/

/-- RD CV[k] (R245). -/
def execRdCv (k : Fin 8) (s : State) : Result := .next (s.respond (s.cv.get k))
/-- WR CV[k], write-any-read-legal (R246). -/
def execWrCv (k : Fin 8) (d : Word) (s : State) : Result := .next (s.setCv k (cvOperand d))

/-! ## MIDI registers -/

/-- The bits of MIDI_PSTATE (R271): [2:0] state code, [15:8] running status, [22:16] pending first data byte. -/
def midiPstateBits (m : Midi) : BitVec 23 := m.data1 ++ m.status ++ (0 : BitVec 5) ++ parserCode m.pstate

/-- RD MIDI_PSTATE (R271). -/
def execRdMidiPstate (s : State) : Result := .next (s.respond (zext32 (midiPstateBits s.midi)))
/-- WR MIDI_PSTATE: read-only (R296). -/
def execWrMidiPstate (d : Word) (s : State) : Result := .next (s.ignoreWrite d)
/-- RD MIDI_META (R272). -/
def execRdMidiMeta (s : State) : Result := .next (s.respond (zext32 s.midi.metaLeft))
/-- WR MIDI_META: read-only (R296). -/
def execWrMidiMeta (d : Word) (s : State) : Result := .next (s.ignoreWrite d)

end Sys2Proof.Machine
end

