-- ==== Sys2Proof/Machine/Midi.lean ====
section
/-! DEFINITION. The MIDI message framer and voice router (spec/42_midi.md), one byte a step. -/

namespace Sys2Proof.Machine

/-! ## Routing into voice state -/

/-- The voice is not Suspended and listens on wire channel c: midiChannel = c + 1 (10_state.md R30, R173, R174). -/
def Voice.listens (x : Voice) (c : BitVec 4) : Bool :=
  x.midiChannel.toNat == c.toNat + 1 && x.state != .suspended

/-- NoteOn for one voice (R173). -/
def noteOnVoice (nan : F32) (c : BitVec 4) (n : BitVec 7) (x : Voice) : Voice :=
  if x.listens c then
    match x.midiMode with
    | .pitched => restart nan { x with midiNote := n }
    | .percussion => if n = x.nativeNote then restart nan { x with midiNote := x.nativeNote } else x
    | .off => x
  else x

/-- NoteOn(c, n) (R173); the velocity is not used. -/
def noteOn (c : BitVec 4) (n : BitVec 7) (s : State) : State :=
  s.mapVoices fun v x => noteOnVoice (freeNaN s.draws v.val 0) c n x

/-- NoteOff for one voice (R174). -/
def noteOffVoice (c : BitVec 4) (x : Voice) : Voice :=
  if x.listens c && x.midiMode == .pitched then { x with state := .silent } else x

/-- NoteOff(c, n) (R174); the note is not compared. -/
def noteOff (c : BitVec 4) (s : State) : State := s.mapVoices fun _ x => noteOffVoice c x

/-- Dispatch of a two-data-byte message (R167, R172, R175). -/
def dispatchMidi (st : Byte) (d1 d2 : BitVec 7) (s : State) : State :=
  let c : BitVec 4 := st.extractLsb' 0 4
  match (st.extractLsb' 4 4).toNat with
  | 9 => if s.cfg.vel0IsNoteOff && d2 == 0 then noteOff c s else noteOn c d1 s
  | 8 => noteOff c s
  | _ => s

/-! ## Status bytes -/

/-- A status byte: StatusChannel, StatusFF or StatusSystem (R160, R162 to R164). -/
def statusByte (b : Byte) (s : State) : State :=
  if b.toNat ≤ 0xEF then s.setMidi ⟨.ch1, b, 0, 0⟩
  else if b = 0xFF then s.setMidi ⟨.meta1, 0x00, 0, 0⟩
  else s.setMidi ⟨.idle, 0x00, 0, 0⟩

/-! ## Data bytes -/

/-- DataFirst (R165). A complete one-data-byte message dispatches nothing (R167, R175). -/
def dataFirst (b : BitVec 7) (s : State) : State :=
  let cls : BitVec 4 := s.midi.status.extractLsb' 4 4
  if cls = 0xC || cls = 0xD then s
  else s.setMidi { s.midi with data1 := b, pstate := .ch2 }

/-- DataSecond (R166): running status is kept, and the message is dispatched in the same step. -/
def dataSecond (b : BitVec 7) (s : State) : State :=
  dispatchMidi s.midi.status s.midi.data1 b (s.setMidi { s.midi with data1 := 0, pstate := .ch1 })

/-- Meta1 (R168). -/
def metaFirst (b : BitVec 7) (s : State) : State :=
  s.setMidi { s.midi with pstate := if b = 0 then .meta2 else .idle }

/-- Meta2 (R169). -/
def metaSecond (b : BitVec 7) (s : State) : State :=
  s.setMidi { s.midi with pstate := if b = 0 then .metaLen else .idle }

/-- MetaLen (R170). -/
def metaLength (b : BitVec 7) (s : State) : State :=
  if b = 0 then (s.setMidi { s.midi with metaLeft := b, pstate := .idle }).emitDiag .done
  else s.setMidi { s.midi with metaLeft := b, pstate := .metaPay }

/-- MetaPay (R171). -/
def metaPayload (b : BitVec 7) (s : State) : State :=
  let left := s.midi.metaLeft - 1
  if left = 0 then
    ((s.setMidi { s.midi with metaLeft := left, pstate := .idle }).emitDiag (.byte b)).emitDiag .done
  else (s.setMidi { s.midi with metaLeft := left }).emitDiag (.byte b)

/-- A data byte, by the parser's state (R160, R161). -/
def dataByte (b : BitVec 7) (s : State) : State :=
  match s.midi.pstate with
  | .idle => s
  | .ch1 => dataFirst b s
  | .ch2 => dataSecond b s
  | .meta1 => metaFirst b s
  | .meta2 => metaSecond b s
  | .metaLen => metaLength b s
  | .metaPay => metaPayload b s

/-- MIDIByte(b) (R160). -/
def midiByte (b : Byte) (s : State) : State :=
  if b.getLsbD 7 then statusByte b s else dataByte (b.extractLsb' 0 7) s

/-! ## One meaning for each row of the table -/

/-- MIDI data byte (R160, R161, R165 to R171). -/
def execMidiData (b : BitVec 7) (s : State) : Result := .next (midiByte ((0 : BitVec 1) ++ b) s)
/-- Status 0x8c, Note-Off (R162). -/
def execMidiNoteOffStatus (c : BitVec 4) (s : State) : Result := .next (midiByte ((0x8 : BitVec 4) ++ c) s)
/-- Status 0x9c, Note-On (R162). -/
def execMidiNoteOnStatus (c : BitVec 4) (s : State) : Result := .next (midiByte ((0x9 : BitVec 4) ++ c) s)
/-- Status 0xAc, polyphonic key pressure (R162). -/
def execMidiPolyPressureStatus (c : BitVec 4) (s : State) : Result := .next (midiByte ((0xA : BitVec 4) ++ c) s)
/-- Status 0xBc, control change (R162). -/
def execMidiControlChangeStatus (c : BitVec 4) (s : State) : Result := .next (midiByte ((0xB : BitVec 4) ++ c) s)
/-- Status 0xCc, program change (R162). -/
def execMidiProgramChangeStatus (c : BitVec 4) (s : State) : Result := .next (midiByte ((0xC : BitVec 4) ++ c) s)
/-- Status 0xDc, channel pressure (R162). -/
def execMidiChannelPressureStatus (c : BitVec 4) (s : State) : Result := .next (midiByte ((0xD : BitVec 4) ++ c) s)
/-- Status 0xEc, pitch bend (R162). -/
def execMidiPitchBendStatus (c : BitVec 4) (s : State) : Result := .next (midiByte ((0xE : BitVec 4) ++ c) s)
/-- System bytes 0xF0 to 0xF7 (R163). -/
def execMidiSystemF0F7 (n : BitVec 3) (s : State) : Result := .next (midiByte ((0b11110 : BitVec 5) ++ n) s)
/-- System bytes 0xF8 to 0xFB (R163). -/
def execMidiSystemF8FB (n : BitVec 2) (s : State) : Result := .next (midiByte ((0b111110 : BitVec 6) ++ n) s)
/-- System bytes 0xFC and 0xFD (R163). -/
def execMidiSystemFCFD (n : BitVec 1) (s : State) : Result := .next (midiByte ((0b1111110 : BitVec 7) ++ n) s)
/-- System byte 0xFE (R163). -/
def execMidiSystemFE (s : State) : Result := .next (midiByte 0xFE s)
/-- Byte 0xFF, the possible start of a meta pattern (R164). -/
def execMidiMetaStart (s : State) : Result := .next (midiByte 0xFF s)

end Sys2Proof.Machine
end

