-- ==== Sys2Proof/Machine/Mixer.lean ====
section
/-! DEFINITION. The mixing engine (spec/44_mixer.md): the frame step of RENDER, one output frame. -/

namespace Sys2Proof.Machine

/-! ## Sample lookup -/

/-- The word address of frame f, channel 0 (20_memory.md R75): arithmetic modulo 2^32. -/
def sampleAddr (x : Voice) (f : Int) : Word :=
  BitVec.ofInt 32 ((x.bufBase.toNat : Int) + f * x.bufChannels.toNat)

/-- SampleRead(v, f) (20_memory.md R75): a fault where there is no memory (a), a free value where the word was written
while the voice was not Suspended (b), the stored word otherwise (c). -/
def sampleRead (mem : Memory) (draw voice site : Nat) (x : Voice) (f : Int) : Except Fault F32 :=
  match readWord mem (sampleAddr x f) with
  | none => .error (.noSampleMemory (sampleAddr x f))
  | some w => .ok (if x.raced.contains (sampleAddr x f) then Config.racedWord draw voice site else w)

/-- The two frames that bracket the pre-wrap position, before the reduction modulo N, and the fraction (R214):
(i0, i1, fr). -/
def bracket (nan : F32) (x : Voice) (p2 inc : F32) : Int × Int × F32 :=
  let pos := fmul nan p2 (flt x.bufFrames.toNat)
  if fLe f0 inc then
    let i0 := ffloor pos
    (i0, i0 + 1, fsub nan pos (flt i0))
  else
    let i0 := fceil pos
    (i0, i0 - 1, fsub nan (flt i0) pos)

/-- `add(a, mul(fr, sub(b, a)))` (R214). -/
def interpolate (nan a b fr : F32) : F32 := fadd nan a (fmul nan fr (fsub nan b a))

/-- Lookup(v, p2, inc) (R214). Both reads happen, also when the fraction is 0 (R214 (f)). -/
def lookup (mem : Memory) (draw voice : Nat) (nan : F32) (x : Voice) (p2 inc : F32) : Except Fault F32 :=
  let br := bracket nan x p2 inc
  let n : Int := x.bufFrames.toNat
  match sampleRead mem draw voice 0 x (br.1 % n) with
  | .error e => .error e
  | .ok a =>
    match sampleRead mem draw voice 1 x (br.2.1 % n) with
    | .error e => .error e
    | .ok b => .ok (interpolate nan a b br.2.2)

/-! ## Gains -/

/-- The gain of the voice's level: level/1000 (R215). -/
def levelGain (nan : F32) (x : Voice) : F32 := fdiv nan (flt x.level.toNat) f1000

/-- The right gain: pan/2000 + 0.5 (R215). -/
def rightGain (nan : F32) (x : Voice) : F32 := fadd nan (fdiv nan (flt x.pan.toInt) f2000) fHalf

/-- The left gain: 1 − the right gain (R215). -/
def leftGain (nan : F32) (x : Voice) : F32 := fsub nan f1 (rightGain nan x)

/-- One output sum after the voice's term: `add(sum, mul(y, gain))` (R215). -/
def addTerm (nanSum nan sum y gain : F32) : F32 := fadd nanSum sum (fmul nan y gain)

/-! ## Wrap -/

/-- The pre-wrap phase is outside [0, 1) (R210). -/
def leavesUnit (p2 : F32) : Bool := fLe f1 p2 || fLt p2 f0

/-- Wrap(p2) (R216): RNE(p2 − floor(p2)), and +0.0 where that rounds to 1.0. Free where p2 is not finite (log 13). -/
def wrapPhase (p2 : F32) : F32 :=
  if isFinite p2 then
    let q := pack false (roundMag (units p2 % (oneUnits : Int)).toNat 1)
    if q = f1 then f0 else q
  else Config.wrapOfNonFinite p2

/-- The voice after its part of the frame (R210, R212, R216, R217). -/
def advanceVoice (x : Voice) (p2 inc : F32) : Voice :=
  { x with
    phaseIncrement := inc
    phase := if leavesUnit p2 then wrapPhase p2 else p2
    state := if leavesUnit p2 && x.mode == .triggered then .silent else x.state }

/-! ## The frame -/

/-- The running state of one frame: the voices, and the two sums L and R. -/
structure Mix where
  voices : Oct Voice
  l : F32
  r : F32
deriving DecidableEq, Repr

/-- Voice v's part of the frame (R210, R211). The places of the free values: 0 the increment, 1 the advance, 2 the
lookup and the gains, 3 the sum L, 4 the sum R (log 5). -/
def mixVoice (s : State) (m : Mix) (v : Fin 8) : Except Fault Mix :=
  let x := m.voices.get v
  let nan := freeNaN s.draws v.val
  if x.state = .suspended then .ok m
  else
    let inc := increment (nan 0) x
    let p2 := fadd (nan 1) x.phase inc
    let voices := m.voices.set v (advanceVoice x p2 inc)
    if x.state = .playing then
      match lookup s.mem s.draws v.val (nan 2) x p2 inc with
      | .error e => .error e
      | .ok sample =>
        let y := fmul (nan 2) sample (levelGain (nan 2) x)
        .ok ⟨voices, addTerm (nan 3) (nan 2) m.l y (leftGain (nan 2) x),
          addTerm (nan 4) (nan 2) m.r y (rightGain (nan 2) x)⟩
    else .ok { m with voices := voices }

/-- The parts of the listed voices, in order. -/
def mixVoices (s : State) : List (Fin 8) → Mix → Except Fault Mix
  | [], m => .ok m
  | v :: rest, m =>
    match mixVoice s m v with
    | .error e => .error e
    | .ok m' => mixVoices s rest m'

/-- FrameAdvance (R218). -/
def frameAdvance (s : State) : State :=
  if s.rFrame.toNat + 1 = s.cfg.framesPerCallback then { s with rBusy := false, rFrame := 0 }
  else { s with rFrame := s.rFrame + 1 }

/-- Frame (R210): all eight voices in index order from the sums +0.0, then OUT and FrameAdvance (R218). -/
def frameStep (s : State) : Result :=
  match mixVoices s octIndices ⟨s.voices, f0, f0⟩ with
  | .error e => .fault e
  | .ok m => .next (frameAdvance ({ s with voices := m.voices, draws := s.draws + 1 }.emitOut m.l m.r))

end Sys2Proof.Machine
end

