-- ==== Sys2Proof/Machine/VoiceRegs.lean ====
section
/-! DEFINITION. Host accesses to the voice registers (spec/45_host.md R250 to R268, R273 to R292, R298). -/

namespace Sys2Proof.Machine

/-! ## Shared operations -/

/-- A read of a voice register: no side effect, in every state (R298). -/
def readVoice (v : Fin 8) (f : Voice → Word) (s : State) : State := s.respond (f (s.voices.get v))

/-- A parameter write (R268): refused with FROZEN_WRITE while the voice is Suspended; else `f` gives the voice after,
or none for a value that is ignored with ILLEGAL_VALUE (60_exceptions.md R302: the freeze check comes first). -/
def writeParam (v : Fin 8) (f : Voice → Option Voice) (s : State) : State :=
  let x := s.voices.get v
  if x.state = .suspended then s.setErr errFrozenWrite
  else
    match f x with
    | some x' => s.setVoice v x'
    | none => s.setErr errIllegalValue

/-- A write of the buffer descriptor (R268): allowed only while the voice is Suspended, else FROZEN_WRITE. -/
def writeBuffer (v : Fin 8) (f : Voice → Voice) (s : State) : State :=
  let x := s.voices.get v
  if x.state = .suspended then s.setVoice v (f x) else s.setErr errFrozenWrite

/-- WriteState (R250): the code is checked first, then the buffer. -/
def writeState (v : Fin 8) (d : Word) (s : State) : State :=
  let x := s.voices.get v
  match playStateOf d with
  | none => s.setErr errIllegalValue
  | some st =>
    if st ≠ .suspended ∧ x.bound = false then s.setErr errUnsuspNobuf
    else s.setVoice v (x.withState st)

/-! ## One meaning for each row of the table -/

/-- RD V<v>.STATE (R273). -/
def execRdVState (v : Fin 8) (s : State) : Result := .next (readVoice v (fun x => zext32 (playStateCode x.state)) s)
/-- WR V<v>.STATE (R250). -/
def execWrVState (v : Fin 8) (d : Word) (s : State) : Result := .next (writeState v d s)
/-- RD V<v>.MODE (R274). -/
def execRdVMode (v : Fin 8) (s : State) : Result := .next (readVoice v (fun x => zext32 (playModeCode x.mode)) s)
/-- WR V<v>.MODE (R251). -/
def execWrVMode (v : Fin 8) (d : Word) (s : State) : Result :=
  .next (writeParam v (fun x => (playModeOf d).map fun m => { x with mode := m }) s)
/-- RD V<v>.PHASE (R275). -/
def execRdVPhase (v : Fin 8) (s : State) : Result := .next (readVoice v (fun x => x.phase) s)
/-- WR V<v>.PHASE: read-only (R296). -/
def execWrVPhase (_v : Fin 8) (d : Word) (s : State) : Result := .next (s.ignoreWrite d)
/-- RD V<v>.PHASEINC (R276). -/
def execRdVPhaseinc (v : Fin 8) (s : State) : Result := .next (readVoice v (fun x => x.phaseIncrement) s)
/-- WR V<v>.PHASEINC: read-only (R296). -/
def execWrVPhaseinc (_v : Fin 8) (d : Word) (s : State) : Result := .next (s.ignoreWrite d)
/-- RD V<v>.SPEED (R277). -/
def execRdVSpeed (v : Fin 8) (s : State) : Result := .next (readVoice v (fun x => sext32 x.speed) s)
/-- WR V<v>.SPEED (R252). -/
def execWrVSpeed (v : Fin 8) (d : Word) (s : State) : Result :=
  .next (writeParam v (fun x => some { x with speed := speedOperand d }) s)
/-- RD V<v>.PITCHF (R278). -/
def execRdVPitchf (v : Fin 8) (s : State) : Result := .next (readVoice v (fun x => x.pitchFactor) s)
/-- WR V<v>.PITCHF (R253). -/
def execWrVPitchf (v : Fin 8) (d : Word) (s : State) : Result :=
  .next (writeParam v (fun x => (pitchOperand d).map fun y => { x with pitchFactor := y }) s)
/-- RD V<v>.TRANSPOSE (R279). -/
def execRdVTranspose (v : Fin 8) (s : State) : Result := .next (readVoice v (fun x => sext32 x.transpose) s)
/-- WR V<v>.TRANSPOSE (R254). -/
def execWrVTranspose (v : Fin 8) (d : Word) (s : State) : Result :=
  .next (writeParam v (fun x => some { x with transpose := transposeOperand d }) s)
/-- RD V<v>.LEVEL (R280). -/
def execRdVLevel (v : Fin 8) (s : State) : Result := .next (readVoice v (fun x => zext32 x.level) s)
/-- WR V<v>.LEVEL (R255). -/
def execWrVLevel (v : Fin 8) (d : Word) (s : State) : Result :=
  .next (writeParam v (fun x => some { x with level := levelOperand d }) s)
/-- RD V<v>.PAN (R281). -/
def execRdVPan (v : Fin 8) (s : State) : Result := .next (readVoice v (fun x => sext32 x.pan) s)
/-- WR V<v>.PAN (R256). -/
def execWrVPan (v : Fin 8) (d : Word) (s : State) : Result :=
  .next (writeParam v (fun x => some { x with pan := panOperand d }) s)
/-- RD V<v>.MIDICH (R282). -/
def execRdVMidich (v : Fin 8) (s : State) : Result := .next (readVoice v (fun x => zext32 x.midiChannel) s)
/-- WR V<v>.MIDICH (R257). -/
def execWrVMidich (v : Fin 8) (d : Word) (s : State) : Result :=
  .next (writeParam v (fun x => some { x with midiChannel := midiChannelOperand d }) s)
/-- RD V<v>.MIDINOTE (R283). -/
def execRdVMidinote (v : Fin 8) (s : State) : Result := .next (readVoice v (fun x => zext32 x.midiNote) s)
/-- WR V<v>.MIDINOTE (R258). -/
def execWrVMidinote (v : Fin 8) (d : Word) (s : State) : Result :=
  .next (writeParam v (fun x => some { x with midiNote := noteOperand d }) s)
/-- RD V<v>.NATIVENOTE (R284). -/
def execRdVNativenote (v : Fin 8) (s : State) : Result := .next (readVoice v (fun x => zext32 x.nativeNote) s)
/-- WR V<v>.NATIVENOTE (R259). -/
def execWrVNativenote (v : Fin 8) (d : Word) (s : State) : Result :=
  .next (writeParam v (fun x => some { x with nativeNote := noteOperand d }) s)
/-- RD V<v>.MIDIMODE (R285). -/
def execRdVMidimode (v : Fin 8) (s : State) : Result := .next (readVoice v (fun x => zext32 (midiModeCode x.midiMode)) s)
/-- WR V<v>.MIDIMODE (R260). -/
def execWrVMidimode (v : Fin 8) (d : Word) (s : State) : Result :=
  .next (writeParam v (fun x => (midiModeOf d).map fun m => { x with midiMode := m }) s)
/-- RD V<v>.CVR_LEVEL (R286). -/
def execRdVCvrLevel (v : Fin 8) (s : State) : Result := .next (readVoice v (fun x => zext32 x.cvrLevel) s)
/-- WR V<v>.CVR_LEVEL (R261). -/
def execWrVCvrLevel (v : Fin 8) (d : Word) (s : State) : Result :=
  .next (writeParam v (fun x => some { x with cvrLevel := routeOperand d }) s)
/-- RD V<v>.CVR_PAN (R287). -/
def execRdVCvrPan (v : Fin 8) (s : State) : Result := .next (readVoice v (fun x => zext32 x.cvrPan) s)
/-- WR V<v>.CVR_PAN (R262). -/
def execWrVCvrPan (v : Fin 8) (d : Word) (s : State) : Result :=
  .next (writeParam v (fun x => some { x with cvrPan := routeOperand d }) s)
/-- RD V<v>.CVR_SPEED (R288). -/
def execRdVCvrSpeed (v : Fin 8) (s : State) : Result := .next (readVoice v (fun x => zext32 x.cvrSpeed) s)
/-- WR V<v>.CVR_SPEED (R263). -/
def execWrVCvrSpeed (v : Fin 8) (d : Word) (s : State) : Result :=
  .next (writeParam v (fun x => some { x with cvrSpeed := routeOperand d }) s)
/-- RD V<v>.CVR_PITCH (R289). -/
def execRdVCvrPitch (v : Fin 8) (s : State) : Result := .next (readVoice v (fun x => zext32 x.cvrPitch) s)
/-- WR V<v>.CVR_PITCH (R264). -/
def execWrVCvrPitch (v : Fin 8) (d : Word) (s : State) : Result :=
  .next (writeParam v (fun x => some { x with cvrPitch := routeOperand d }) s)
/-- RD V<v>.BUF_BASE (R290). -/
def execRdVBufBase (v : Fin 8) (s : State) : Result := .next (readVoice v (fun x => x.bufBase) s)
/-- WR V<v>.BUF_BASE (R265). -/
def execWrVBufBase (v : Fin 8) (d : Word) (s : State) : Result :=
  .next (writeBuffer v (fun x => { x with bufBase := d }) s)
/-- RD V<v>.BUF_FRAMES (R291). -/
def execRdVBufFrames (v : Fin 8) (s : State) : Result := .next (readVoice v (fun x => zext32 x.bufFrames) s)
/-- WR V<v>.BUF_FRAMES (R266). -/
def execWrVBufFrames (v : Fin 8) (d : Word) (s : State) : Result :=
  .next (writeBuffer v (fun x => { x with bufFrames := bufFramesOperand d }) s)
/-- RD V<v>.BUF_CHANNELS (R292). -/
def execRdVBufChannels (v : Fin 8) (s : State) : Result := .next (readVoice v (fun x => zext32 x.bufChannels) s)
/-- WR V<v>.BUF_CHANNELS (R267). -/
def execWrVBufChannels (v : Fin 8) (d : Word) (s : State) : Result :=
  .next (writeBuffer v (fun x => { x with bufChannels := bufChannelsOperand d }) s)

end Sys2Proof.Machine
end

