-- ==== Sys2Proof/Syntax.lean ====
section
/-! DEFINITION. The instructions of the block are the input events its agents consume (spec/30_encoding.md). `Instr`
has one constructor for each row of spec/opcode_table.json, in the table's order. A header bit that no format uses
(R90, R103 (e)) has no effect and is no operand. -/

namespace Sys2Proof

/-- One input event (30_encoding.md R90 to R96). Operands: pin levels and trigger levels from the header (R93, R94);
the MIDI byte's varying bits (R92); a trigger channel `i`, CV channel `k` or voice `v` (10_state.md R62, R63, R65);
the data word `d` of a host write (R91). -/
inductive Instr where
  /-- RESET, port 100 (R95). -/
  | reset
  /-- TICK a b btn, port 010 with ERR = 0 (R93). -/
  | tick (a : Bool) (b : Bool) (btn : Bool)
  /-- TICK!, port 010 with ERR = 1: the pin read failed (R93). -/
  | tickFail
  /-- CB t, port 011 with ERR = 0 (R94). -/
  | cb (t : Byte)
  /-- CB!, port 011 with ERR = 1: the trigger pin read failed (R94). -/
  | cbFail
  /-- MIDI data byte 0x00..0x7F (R92). -/
  | midiData (b : BitVec 7)
  /-- MIDI status byte 0x80 + c, wire channel c (R92). -/
  | midiNoteOffStatus (c : BitVec 4)
  /-- MIDI status byte 0x90 + c, wire channel c (R92). -/
  | midiNoteOnStatus (c : BitVec 4)
  /-- MIDI status byte 0xA0 + c, wire channel c (R92). -/
  | midiPolyPressureStatus (c : BitVec 4)
  /-- MIDI status byte 0xB0 + c, wire channel c (R92). -/
  | midiControlChangeStatus (c : BitVec 4)
  /-- MIDI status byte 0xC0 + c, wire channel c (R92). -/
  | midiProgramChangeStatus (c : BitVec 4)
  /-- MIDI status byte 0xD0 + c, wire channel c (R92). -/
  | midiChannelPressureStatus (c : BitVec 4)
  /-- MIDI status byte 0xE0 + c, wire channel c (R92). -/
  | midiPitchBendStatus (c : BitVec 4)
  /-- MIDI byte 0xF0 + n (R92). -/
  | midiSystemF0F7 (n : BitVec 3)
  /-- MIDI byte 0xF8 + n (R92). -/
  | midiSystemF8FB (n : BitVec 2)
  /-- MIDI byte 0xFC + n (R92). -/
  | midiSystemFCFD (n : BitVec 1)
  /-- MIDI byte 0xFE (R92). -/
  | midiSystemFE
  /-- MIDI byte 0xFF (R92). -/
  | midiMetaStart
  /-- An event on the reserved port 101 (R96). -/
  | reservedPort5
  /-- An event on the reserved port 110 (R96). -/
  | reservedPort6
  /-- An event on the reserved port 111 (R96). -/
  | reservedPort7
  /-- Host read of ERR (45_host.md, R242). -/
  | rdErr
  /-- Host write of ERR (45_host.md, R243). -/
  | wrErr (d : Word)
  /-- Host read of RSTAT (45_host.md, R244). -/
  | rdRstat
  /-- Host write of RSTAT (45_host.md, R296). -/
  | wrRstat (d : Word)
  /-- Host read of ENC_CTRL (45_host.md, R240). -/
  | rdEncCtrl
  /-- Host write of ENC_CTRL (45_host.md, R241). -/
  | wrEncCtrl (d : Word)
  /-- Host read of ENC_VALUE (40_encoder.md, R131). -/
  | rdEncValue
  /-- Host write of ENC_VALUE (45_host.md, R296). -/
  | wrEncValue (d : Word)
  /-- Host read of ENC_BUTTON (40_encoder.md, R132). -/
  | rdEncButton
  /-- Host write of ENC_BUTTON (45_host.md, R296). -/
  | wrEncButton (d : Word)
  /-- Host read of ENC_DELTA (40_encoder.md, R133). -/
  | rdEncDelta
  /-- Host write of ENC_DELTA (45_host.md, R296). -/
  | wrEncDelta (d : Word)
  /-- Host read of ENC_ACCEL (40_encoder.md, R134). -/
  | rdEncAccel
  /-- Host write of ENC_ACCEL (45_host.md, R296). -/
  | wrEncAccel (d : Word)
  /-- Host read of ENC_HIST (40_encoder.md, R135). -/
  | rdEncHist
  /-- Host write of ENC_HIST (45_host.md, R296). -/
  | wrEncHist (d : Word)
  /-- Host read of ENC_KEYDOWN (40_encoder.md, R136). -/
  | rdEncKeydown
  /-- Host write of ENC_KEYDOWN (45_host.md, R296). -/
  | wrEncKeydown (d : Word)
  /-- Host read of ENC_DCLK (40_encoder.md, R137). -/
  | rdEncDclk
  /-- Host write of ENC_DCLK (45_host.md, R296). -/
  | wrEncDclk (d : Word)
  /-- Host read of ENC_PRESC (40_encoder.md, R138). -/
  | rdEncPresc
  /-- Host write of ENC_PRESC (45_host.md, R296). -/
  | wrEncPresc (d : Word)
  /-- Host read of ENC_BTNPEEK (40_encoder.md, R139). -/
  | rdEncBtnpeek
  /-- Host write of ENC_BTNPEEK (45_host.md, R296). -/
  | wrEncBtnpeek (d : Word)
  /-- Host read of TRIG_RAW (45_host.md, R247). -/
  | rdTrigRaw
  /-- Host write of TRIG_RAW (45_host.md, R296). -/
  | wrTrigRaw (d : Word)
  /-- Host read of TRIG_RISE (45_host.md, R248). -/
  | rdTrigRise
  /-- Host write of TRIG_RISE (45_host.md, R296). -/
  | wrTrigRise (d : Word)
  /-- Host read of TRIG_RELEASED (45_host.md, R249). -/
  | rdTrigReleased
  /-- Host write of TRIG_RELEASED (45_host.md, R296). -/
  | wrTrigReleased (d : Word)
  /-- Host read of TRIG_STEADY (45_host.md, R269). -/
  | rdTrigSteady
  /-- Host write of TRIG_STEADY (45_host.md, R296). -/
  | wrTrigSteady (d : Word)
  /-- Host read of TRIG_CNT[i] (45_host.md, R270). -/
  | rdTrigCnt (i : Fin 8)
  /-- Host write of TRIG_CNT[i] (45_host.md, R296). -/
  | wrTrigCnt (i : Fin 8) (d : Word)
  /-- Host read of CV[k] (45_host.md, R245). -/
  | rdCv (k : Fin 8)
  /-- Host write of CV[k] (45_host.md, R246). -/
  | wrCv (k : Fin 8) (d : Word)
  /-- Host read of MIDI_PSTATE (45_host.md, R271). -/
  | rdMidiPstate
  /-- Host write of MIDI_PSTATE (45_host.md, R296). -/
  | wrMidiPstate (d : Word)
  /-- Host read of MIDI_META (45_host.md, R272). -/
  | rdMidiMeta
  /-- Host write of MIDI_META (45_host.md, R296). -/
  | wrMidiMeta (d : Word)
  /-- Host read of V<v>.STATE (45_host.md, R273). -/
  | rdVState (v : Fin 8)
  /-- Host write of V<v>.STATE (45_host.md, R250). -/
  | wrVState (v : Fin 8) (d : Word)
  /-- Host read of V<v>.MODE (45_host.md, R274). -/
  | rdVMode (v : Fin 8)
  /-- Host write of V<v>.MODE (45_host.md, R251). -/
  | wrVMode (v : Fin 8) (d : Word)
  /-- Host read of V<v>.PHASE (45_host.md, R275). -/
  | rdVPhase (v : Fin 8)
  /-- Host write of V<v>.PHASE (45_host.md, R296). -/
  | wrVPhase (v : Fin 8) (d : Word)
  /-- Host read of V<v>.PHASEINC (45_host.md, R276). -/
  | rdVPhaseinc (v : Fin 8)
  /-- Host write of V<v>.PHASEINC (45_host.md, R296). -/
  | wrVPhaseinc (v : Fin 8) (d : Word)
  /-- Host read of V<v>.SPEED (45_host.md, R277). -/
  | rdVSpeed (v : Fin 8)
  /-- Host write of V<v>.SPEED (45_host.md, R252). -/
  | wrVSpeed (v : Fin 8) (d : Word)
  /-- Host read of V<v>.PITCHF (45_host.md, R278). -/
  | rdVPitchf (v : Fin 8)
  /-- Host write of V<v>.PITCHF (45_host.md, R253). -/
  | wrVPitchf (v : Fin 8) (d : Word)
  /-- Host read of V<v>.TRANSPOSE (45_host.md, R279). -/
  | rdVTranspose (v : Fin 8)
  /-- Host write of V<v>.TRANSPOSE (45_host.md, R254). -/
  | wrVTranspose (v : Fin 8) (d : Word)
  /-- Host read of V<v>.LEVEL (45_host.md, R280). -/
  | rdVLevel (v : Fin 8)
  /-- Host write of V<v>.LEVEL (45_host.md, R255). -/
  | wrVLevel (v : Fin 8) (d : Word)
  /-- Host read of V<v>.PAN (45_host.md, R281). -/
  | rdVPan (v : Fin 8)
  /-- Host write of V<v>.PAN (45_host.md, R256). -/
  | wrVPan (v : Fin 8) (d : Word)
  /-- Host read of V<v>.MIDICH (45_host.md, R282). -/
  | rdVMidich (v : Fin 8)
  /-- Host write of V<v>.MIDICH (45_host.md, R257). -/
  | wrVMidich (v : Fin 8) (d : Word)
  /-- Host read of V<v>.MIDINOTE (45_host.md, R283). -/
  | rdVMidinote (v : Fin 8)
  /-- Host write of V<v>.MIDINOTE (45_host.md, R258). -/
  | wrVMidinote (v : Fin 8) (d : Word)
  /-- Host read of V<v>.NATIVENOTE (45_host.md, R284). -/
  | rdVNativenote (v : Fin 8)
  /-- Host write of V<v>.NATIVENOTE (45_host.md, R259). -/
  | wrVNativenote (v : Fin 8) (d : Word)
  /-- Host read of V<v>.MIDIMODE (45_host.md, R285). -/
  | rdVMidimode (v : Fin 8)
  /-- Host write of V<v>.MIDIMODE (45_host.md, R260). -/
  | wrVMidimode (v : Fin 8) (d : Word)
  /-- Host read of V<v>.CVR_LEVEL (45_host.md, R286). -/
  | rdVCvrLevel (v : Fin 8)
  /-- Host write of V<v>.CVR_LEVEL (45_host.md, R261). -/
  | wrVCvrLevel (v : Fin 8) (d : Word)
  /-- Host read of V<v>.CVR_PAN (45_host.md, R287). -/
  | rdVCvrPan (v : Fin 8)
  /-- Host write of V<v>.CVR_PAN (45_host.md, R262). -/
  | wrVCvrPan (v : Fin 8) (d : Word)
  /-- Host read of V<v>.CVR_SPEED (45_host.md, R288). -/
  | rdVCvrSpeed (v : Fin 8)
  /-- Host write of V<v>.CVR_SPEED (45_host.md, R263). -/
  | wrVCvrSpeed (v : Fin 8) (d : Word)
  /-- Host read of V<v>.CVR_PITCH (45_host.md, R289). -/
  | rdVCvrPitch (v : Fin 8)
  /-- Host write of V<v>.CVR_PITCH (45_host.md, R264). -/
  | wrVCvrPitch (v : Fin 8) (d : Word)
  /-- Host read of V<v>.BUF_BASE (45_host.md, R290). -/
  | rdVBufBase (v : Fin 8)
  /-- Host write of V<v>.BUF_BASE (45_host.md, R265). -/
  | wrVBufBase (v : Fin 8) (d : Word)
  /-- Host read of V<v>.BUF_FRAMES (45_host.md, R291). -/
  | rdVBufFrames (v : Fin 8)
  /-- Host write of V<v>.BUF_FRAMES (45_host.md, R266). -/
  | wrVBufFrames (v : Fin 8) (d : Word)
  /-- Host read of V<v>.BUF_CHANNELS (45_host.md, R292). -/
  | rdVBufChannels (v : Fin 8)
  /-- Host write of V<v>.BUF_CHANNELS (45_host.md, R267). -/
  | wrVBufChannels (v : Fin 8) (d : Word)
  /-- Host access to a reserved address `a` (10_state.md R66): a read, or for `w` a write of `d` (R91, R295). -/
  | reservedAccess (w : Bool) (a : BitVec 12) (d : Word)
deriving DecidableEq, Repr

end Sys2Proof
end

