-- ==== Sys2Proof/Machine/Dispatch.lean ====
section
/-! DEFINITION. `exec`: one arm per constructor of `Instr`, each one call of the instruction's meaning. -/

namespace Sys2Proof.Machine

def exec (i : Instr) (s : State) : Host.Outcome State Fault Refusal :=
  match i with
  | .reset => Sys2Proof.Machine.execReset s
  | .tick a b btn => Sys2Proof.Machine.execTick a b btn s
  | .tickFail => Sys2Proof.Machine.execTickFail s
  | .cb t => Sys2Proof.Machine.execCb t s
  | .cbFail => Sys2Proof.Machine.execCbFail s
  | .midiData b => Sys2Proof.Machine.execMidiData b s
  | .midiNoteOffStatus c => Sys2Proof.Machine.execMidiNoteOffStatus c s
  | .midiNoteOnStatus c => Sys2Proof.Machine.execMidiNoteOnStatus c s
  | .midiPolyPressureStatus c => Sys2Proof.Machine.execMidiPolyPressureStatus c s
  | .midiControlChangeStatus c => Sys2Proof.Machine.execMidiControlChangeStatus c s
  | .midiProgramChangeStatus c => Sys2Proof.Machine.execMidiProgramChangeStatus c s
  | .midiChannelPressureStatus c => Sys2Proof.Machine.execMidiChannelPressureStatus c s
  | .midiPitchBendStatus c => Sys2Proof.Machine.execMidiPitchBendStatus c s
  | .midiSystemF0F7 n => Sys2Proof.Machine.execMidiSystemF0F7 n s
  | .midiSystemF8FB n => Sys2Proof.Machine.execMidiSystemF8FB n s
  | .midiSystemFCFD n => Sys2Proof.Machine.execMidiSystemFCFD n s
  | .midiSystemFE => Sys2Proof.Machine.execMidiSystemFE s
  | .midiMetaStart => Sys2Proof.Machine.execMidiMetaStart s
  | .reservedPort5 => Sys2Proof.Machine.execReservedPort5 s
  | .reservedPort6 => Sys2Proof.Machine.execReservedPort6 s
  | .reservedPort7 => Sys2Proof.Machine.execReservedPort7 s
  | .rdErr => Sys2Proof.Machine.execRdErr s
  | .wrErr d => Sys2Proof.Machine.execWrErr d s
  | .rdRstat => Sys2Proof.Machine.execRdRstat s
  | .wrRstat d => Sys2Proof.Machine.execWrRstat d s
  | .rdEncCtrl => Sys2Proof.Machine.execRdEncCtrl s
  | .wrEncCtrl d => Sys2Proof.Machine.execWrEncCtrl d s
  | .rdEncValue => Sys2Proof.Machine.execRdEncValue s
  | .wrEncValue d => Sys2Proof.Machine.execWrEncValue d s
  | .rdEncButton => Sys2Proof.Machine.execRdEncButton s
  | .wrEncButton d => Sys2Proof.Machine.execWrEncButton d s
  | .rdEncDelta => Sys2Proof.Machine.execRdEncDelta s
  | .wrEncDelta d => Sys2Proof.Machine.execWrEncDelta d s
  | .rdEncAccel => Sys2Proof.Machine.execRdEncAccel s
  | .wrEncAccel d => Sys2Proof.Machine.execWrEncAccel d s
  | .rdEncHist => Sys2Proof.Machine.execRdEncHist s
  | .wrEncHist d => Sys2Proof.Machine.execWrEncHist d s
  | .rdEncKeydown => Sys2Proof.Machine.execRdEncKeydown s
  | .wrEncKeydown d => Sys2Proof.Machine.execWrEncKeydown d s
  | .rdEncDclk => Sys2Proof.Machine.execRdEncDclk s
  | .wrEncDclk d => Sys2Proof.Machine.execWrEncDclk d s
  | .rdEncPresc => Sys2Proof.Machine.execRdEncPresc s
  | .wrEncPresc d => Sys2Proof.Machine.execWrEncPresc d s
  | .rdEncBtnpeek => Sys2Proof.Machine.execRdEncBtnpeek s
  | .wrEncBtnpeek d => Sys2Proof.Machine.execWrEncBtnpeek d s
  | .rdTrigRaw => Sys2Proof.Machine.execRdTrigRaw s
  | .wrTrigRaw d => Sys2Proof.Machine.execWrTrigRaw d s
  | .rdTrigRise => Sys2Proof.Machine.execRdTrigRise s
  | .wrTrigRise d => Sys2Proof.Machine.execWrTrigRise d s
  | .rdTrigReleased => Sys2Proof.Machine.execRdTrigReleased s
  | .wrTrigReleased d => Sys2Proof.Machine.execWrTrigReleased d s
  | .rdTrigSteady => Sys2Proof.Machine.execRdTrigSteady s
  | .wrTrigSteady d => Sys2Proof.Machine.execWrTrigSteady d s
  | .rdTrigCnt j => Sys2Proof.Machine.execRdTrigCnt j s
  | .wrTrigCnt j d => Sys2Proof.Machine.execWrTrigCnt j d s
  | .rdCv k => Sys2Proof.Machine.execRdCv k s
  | .wrCv k d => Sys2Proof.Machine.execWrCv k d s
  | .rdMidiPstate => Sys2Proof.Machine.execRdMidiPstate s
  | .wrMidiPstate d => Sys2Proof.Machine.execWrMidiPstate d s
  | .rdMidiMeta => Sys2Proof.Machine.execRdMidiMeta s
  | .wrMidiMeta d => Sys2Proof.Machine.execWrMidiMeta d s
  | .rdVState v => Sys2Proof.Machine.execRdVState v s
  | .wrVState v d => Sys2Proof.Machine.execWrVState v d s
  | .rdVMode v => Sys2Proof.Machine.execRdVMode v s
  | .wrVMode v d => Sys2Proof.Machine.execWrVMode v d s
  | .rdVPhase v => Sys2Proof.Machine.execRdVPhase v s
  | .wrVPhase v d => Sys2Proof.Machine.execWrVPhase v d s
  | .rdVPhaseinc v => Sys2Proof.Machine.execRdVPhaseinc v s
  | .wrVPhaseinc v d => Sys2Proof.Machine.execWrVPhaseinc v d s
  | .rdVSpeed v => Sys2Proof.Machine.execRdVSpeed v s
  | .wrVSpeed v d => Sys2Proof.Machine.execWrVSpeed v d s
  | .rdVPitchf v => Sys2Proof.Machine.execRdVPitchf v s
  | .wrVPitchf v d => Sys2Proof.Machine.execWrVPitchf v d s
  | .rdVTranspose v => Sys2Proof.Machine.execRdVTranspose v s
  | .wrVTranspose v d => Sys2Proof.Machine.execWrVTranspose v d s
  | .rdVLevel v => Sys2Proof.Machine.execRdVLevel v s
  | .wrVLevel v d => Sys2Proof.Machine.execWrVLevel v d s
  | .rdVPan v => Sys2Proof.Machine.execRdVPan v s
  | .wrVPan v d => Sys2Proof.Machine.execWrVPan v d s
  | .rdVMidich v => Sys2Proof.Machine.execRdVMidich v s
  | .wrVMidich v d => Sys2Proof.Machine.execWrVMidich v d s
  | .rdVMidinote v => Sys2Proof.Machine.execRdVMidinote v s
  | .wrVMidinote v d => Sys2Proof.Machine.execWrVMidinote v d s
  | .rdVNativenote v => Sys2Proof.Machine.execRdVNativenote v s
  | .wrVNativenote v d => Sys2Proof.Machine.execWrVNativenote v d s
  | .rdVMidimode v => Sys2Proof.Machine.execRdVMidimode v s
  | .wrVMidimode v d => Sys2Proof.Machine.execWrVMidimode v d s
  | .rdVCvrLevel v => Sys2Proof.Machine.execRdVCvrLevel v s
  | .wrVCvrLevel v d => Sys2Proof.Machine.execWrVCvrLevel v d s
  | .rdVCvrPan v => Sys2Proof.Machine.execRdVCvrPan v s
  | .wrVCvrPan v d => Sys2Proof.Machine.execWrVCvrPan v d s
  | .rdVCvrSpeed v => Sys2Proof.Machine.execRdVCvrSpeed v s
  | .wrVCvrSpeed v d => Sys2Proof.Machine.execWrVCvrSpeed v d s
  | .rdVCvrPitch v => Sys2Proof.Machine.execRdVCvrPitch v s
  | .wrVCvrPitch v d => Sys2Proof.Machine.execWrVCvrPitch v d s
  | .rdVBufBase v => Sys2Proof.Machine.execRdVBufBase v s
  | .wrVBufBase v d => Sys2Proof.Machine.execWrVBufBase v d s
  | .rdVBufFrames v => Sys2Proof.Machine.execRdVBufFrames v s
  | .wrVBufFrames v d => Sys2Proof.Machine.execWrVBufFrames v d s
  | .rdVBufChannels v => Sys2Proof.Machine.execRdVBufChannels v s
  | .wrVBufChannels v d => Sys2Proof.Machine.execWrVBufChannels v d s
  | .reservedAccess w a d => Sys2Proof.Machine.execReservedAccess w a d s

end Sys2Proof.Machine
end

