-- ==== Sys2Proof/WellFormed.lean ====
section
/-! DEFINITION. Which instructions an encoding stands for. Every operand has the exact type of its field, so the only
checks are those of the reserved-address row (spec/10_state.md R66, spec/30_encoding.md R91). -/

namespace Sys2Proof

/-- The reserved host addresses of 10_state.md R66. -/
def isReservedAddr (a : BitVec 12) : Bool :=
  let n := a.toNat
  (0x002 ≤ n && n ≤ 0x00F) || (0x01A ≤ n && n ≤ 0x01F) || (0x024 ≤ n && n ≤ 0x027) ||
    (0x038 ≤ n && n ≤ 0x03F) || (0x042 ≤ n && n ≤ 0x0FF) ||
    (0x100 ≤ n && n ≤ 0x1FF && 0x14 ≤ n % 0x20) || 0x200 ≤ n

/-- A reserved access names a reserved address, and a read carries no data word (R91: "A read has no data word"). -/
def WellFormed (i : Instr) : Bool :=
  match i with
  | .reset => true
  | .tick _ _ _ => true
  | .tickFail => true
  | .cb _ => true
  | .cbFail => true
  | .midiData _ => true
  | .midiNoteOffStatus _ => true
  | .midiNoteOnStatus _ => true
  | .midiPolyPressureStatus _ => true
  | .midiControlChangeStatus _ => true
  | .midiProgramChangeStatus _ => true
  | .midiChannelPressureStatus _ => true
  | .midiPitchBendStatus _ => true
  | .midiSystemF0F7 _ => true
  | .midiSystemF8FB _ => true
  | .midiSystemFCFD _ => true
  | .midiSystemFE => true
  | .midiMetaStart => true
  | .reservedPort5 => true
  | .reservedPort6 => true
  | .reservedPort7 => true
  | .rdErr => true
  | .wrErr _ => true
  | .rdRstat => true
  | .wrRstat _ => true
  | .rdEncCtrl => true
  | .wrEncCtrl _ => true
  | .rdEncValue => true
  | .wrEncValue _ => true
  | .rdEncButton => true
  | .wrEncButton _ => true
  | .rdEncDelta => true
  | .wrEncDelta _ => true
  | .rdEncAccel => true
  | .wrEncAccel _ => true
  | .rdEncHist => true
  | .wrEncHist _ => true
  | .rdEncKeydown => true
  | .wrEncKeydown _ => true
  | .rdEncDclk => true
  | .wrEncDclk _ => true
  | .rdEncPresc => true
  | .wrEncPresc _ => true
  | .rdEncBtnpeek => true
  | .wrEncBtnpeek _ => true
  | .rdTrigRaw => true
  | .wrTrigRaw _ => true
  | .rdTrigRise => true
  | .wrTrigRise _ => true
  | .rdTrigReleased => true
  | .wrTrigReleased _ => true
  | .rdTrigSteady => true
  | .wrTrigSteady _ => true
  | .rdTrigCnt _ => true
  | .wrTrigCnt _ _ => true
  | .rdCv _ => true
  | .wrCv _ _ => true
  | .rdMidiPstate => true
  | .wrMidiPstate _ => true
  | .rdMidiMeta => true
  | .wrMidiMeta _ => true
  | .rdVState _ => true
  | .wrVState _ _ => true
  | .rdVMode _ => true
  | .wrVMode _ _ => true
  | .rdVPhase _ => true
  | .wrVPhase _ _ => true
  | .rdVPhaseinc _ => true
  | .wrVPhaseinc _ _ => true
  | .rdVSpeed _ => true
  | .wrVSpeed _ _ => true
  | .rdVPitchf _ => true
  | .wrVPitchf _ _ => true
  | .rdVTranspose _ => true
  | .wrVTranspose _ _ => true
  | .rdVLevel _ => true
  | .wrVLevel _ _ => true
  | .rdVPan _ => true
  | .wrVPan _ _ => true
  | .rdVMidich _ => true
  | .wrVMidich _ _ => true
  | .rdVMidinote _ => true
  | .wrVMidinote _ _ => true
  | .rdVNativenote _ => true
  | .wrVNativenote _ _ => true
  | .rdVMidimode _ => true
  | .wrVMidimode _ _ => true
  | .rdVCvrLevel _ => true
  | .wrVCvrLevel _ _ => true
  | .rdVCvrPan _ => true
  | .wrVCvrPan _ _ => true
  | .rdVCvrSpeed _ => true
  | .wrVCvrSpeed _ _ => true
  | .rdVCvrPitch _ => true
  | .wrVCvrPitch _ _ => true
  | .rdVBufBase _ => true
  | .wrVBufBase _ _ => true
  | .rdVBufFrames _ => true
  | .wrVBufFrames _ _ => true
  | .rdVBufChannels _ => true
  | .wrVBufChannels _ _ => true
  | .reservedAccess w a d => isReservedAddr a && (w || d == 0)

end Sys2Proof
end

