-- ==== Sys2Proof/Decode.lean ====
section
/-! DEFINITION. The decoder and the encoder of input events (spec/30_encoding.md R90 to R96, R102; spec/10_state.md R60
to R66). The transport delivers an event as a sequence of 16-bit words: the header, then for a host write the two
halves of the 32-bit data word, the low half first (DESIGN CHOICE, safe, log 10). Every header has a meaning (R103), so
`decode` rejects only a sequence that does not hold a whole event. -/

namespace Sys2Proof

/-- Why a sequence of words does not begin with a whole event. -/
inductive DecodeError where
  /-- No word at all. -/
  | noHeader
  /-- The header of a host write whose data word is not there (yet). -/
  | noDataWord
deriving DecidableEq, Repr

/-- What `decode` answers: an instruction and the words after it, or a named rejection. -/
inductive Decoded where
  | ok (i : Instr) (rest : List Half)
  | reject (why : DecodeError)
deriving DecidableEq, Repr

/-- H[15:13], the port (R90). -/
def headerPort (h : Half) : BitVec 3 := h.extractLsb' 13 3

/-- Whether the header is that of a host write, the one event with a data word (R91, R102). -/
def headerHasData (h : Half) : Bool := headerPort h == 0 && h.getLsbD 12

/-- The read or the write instruction of one register. -/
def readOrWrite (w : Bool) (rd wr : Instr) : Option Instr := some (if w then wr else rd)

/-- The access to a register outside the voice file (10_state.md R60 to R64); none for a reserved address. -/
def decodeGlobal (w : Bool) (a : Nat) (d : Word) : Option Instr :=
  match a with
  | 0x000 => readOrWrite w .rdErr (.wrErr d)
  | 0x001 => readOrWrite w .rdRstat (.wrRstat d)
  | 0x010 => readOrWrite w .rdEncCtrl (.wrEncCtrl d)
  | 0x011 => readOrWrite w .rdEncValue (.wrEncValue d)
  | 0x012 => readOrWrite w .rdEncButton (.wrEncButton d)
  | 0x013 => readOrWrite w .rdEncDelta (.wrEncDelta d)
  | 0x014 => readOrWrite w .rdEncAccel (.wrEncAccel d)
  | 0x015 => readOrWrite w .rdEncHist (.wrEncHist d)
  | 0x016 => readOrWrite w .rdEncKeydown (.wrEncKeydown d)
  | 0x017 => readOrWrite w .rdEncDclk (.wrEncDclk d)
  | 0x018 => readOrWrite w .rdEncPresc (.wrEncPresc d)
  | 0x019 => readOrWrite w .rdEncBtnpeek (.wrEncBtnpeek d)
  | 0x020 => readOrWrite w .rdTrigRaw (.wrTrigRaw d)
  | 0x021 => readOrWrite w .rdTrigRise (.wrTrigRise d)
  | 0x022 => readOrWrite w .rdTrigReleased (.wrTrigReleased d)
  | 0x023 => readOrWrite w .rdTrigSteady (.wrTrigSteady d)
  | 0x028 => readOrWrite w (.rdTrigCnt 0) (.wrTrigCnt 0 d)
  | 0x029 => readOrWrite w (.rdTrigCnt 1) (.wrTrigCnt 1 d)
  | 0x02A => readOrWrite w (.rdTrigCnt 2) (.wrTrigCnt 2 d)
  | 0x02B => readOrWrite w (.rdTrigCnt 3) (.wrTrigCnt 3 d)
  | 0x02C => readOrWrite w (.rdTrigCnt 4) (.wrTrigCnt 4 d)
  | 0x02D => readOrWrite w (.rdTrigCnt 5) (.wrTrigCnt 5 d)
  | 0x02E => readOrWrite w (.rdTrigCnt 6) (.wrTrigCnt 6 d)
  | 0x02F => readOrWrite w (.rdTrigCnt 7) (.wrTrigCnt 7 d)
  | 0x030 => readOrWrite w (.rdCv 0) (.wrCv 0 d)
  | 0x031 => readOrWrite w (.rdCv 1) (.wrCv 1 d)
  | 0x032 => readOrWrite w (.rdCv 2) (.wrCv 2 d)
  | 0x033 => readOrWrite w (.rdCv 3) (.wrCv 3 d)
  | 0x034 => readOrWrite w (.rdCv 4) (.wrCv 4 d)
  | 0x035 => readOrWrite w (.rdCv 5) (.wrCv 5 d)
  | 0x036 => readOrWrite w (.rdCv 6) (.wrCv 6 d)
  | 0x037 => readOrWrite w (.rdCv 7) (.wrCv 7 d)
  | 0x040 => readOrWrite w .rdMidiPstate (.wrMidiPstate d)
  | 0x041 => readOrWrite w .rdMidiMeta (.wrMidiMeta d)
  | _ => none

/-- The access to a register of voice `v` (10_state.md R65); none for a reserved offset. -/
def decodeVoice (w : Bool) (v : Fin 8) (off : Nat) (d : Word) : Option Instr :=
  match off with
  | 0x00 => readOrWrite w (.rdVState v) (.wrVState v d)
  | 0x01 => readOrWrite w (.rdVMode v) (.wrVMode v d)
  | 0x02 => readOrWrite w (.rdVPhase v) (.wrVPhase v d)
  | 0x03 => readOrWrite w (.rdVPhaseinc v) (.wrVPhaseinc v d)
  | 0x04 => readOrWrite w (.rdVSpeed v) (.wrVSpeed v d)
  | 0x05 => readOrWrite w (.rdVPitchf v) (.wrVPitchf v d)
  | 0x06 => readOrWrite w (.rdVTranspose v) (.wrVTranspose v d)
  | 0x07 => readOrWrite w (.rdVLevel v) (.wrVLevel v d)
  | 0x08 => readOrWrite w (.rdVPan v) (.wrVPan v d)
  | 0x09 => readOrWrite w (.rdVMidich v) (.wrVMidich v d)
  | 0x0A => readOrWrite w (.rdVMidinote v) (.wrVMidinote v d)
  | 0x0B => readOrWrite w (.rdVNativenote v) (.wrVNativenote v d)
  | 0x0C => readOrWrite w (.rdVMidimode v) (.wrVMidimode v d)
  | 0x0D => readOrWrite w (.rdVCvrLevel v) (.wrVCvrLevel v d)
  | 0x0E => readOrWrite w (.rdVCvrPan v) (.wrVCvrPan v d)
  | 0x0F => readOrWrite w (.rdVCvrSpeed v) (.wrVCvrSpeed v d)
  | 0x10 => readOrWrite w (.rdVCvrPitch v) (.wrVCvrPitch v d)
  | 0x11 => readOrWrite w (.rdVBufBase v) (.wrVBufBase v d)
  | 0x12 => readOrWrite w (.rdVBufFrames v) (.wrVBufFrames v d)
  | 0x13 => readOrWrite w (.rdVBufChannels v) (.wrVBufChannels v d)
  | _ => none

/-- Port 000: a host access (R91). A read has no data word. -/
def decodeHost (w : Bool) (a : BitVec 12) (d : Word) : Instr :=
  let register :=
    if a.extractLsb' 8 4 = 1 then
      decodeVoice w (a.extractLsb' 5 3).toFin (a.extractLsb' 0 5).toNat d
    else decodeGlobal w a.toNat d
  match register with
  | some i => i
  | none => .reservedAccess w a (if w then d else 0)

/-- Port 001: one MIDI byte, by its class (R92). -/
def decodeMidi (b : Byte) : Instr :=
  if b.getLsbD 7 = false then .midiData (b.extractLsb' 0 7)
  else
    let c : BitVec 4 := b.extractLsb' 0 4
    match (b.extractLsb' 4 3).toNat with
    | 0 => .midiNoteOffStatus c
    | 1 => .midiNoteOnStatus c
    | 2 => .midiPolyPressureStatus c
    | 3 => .midiControlChangeStatus c
    | 4 => .midiProgramChangeStatus c
    | 5 => .midiChannelPressureStatus c
    | 6 => .midiPitchBendStatus c
    | _ =>
      if b.getLsbD 3 = false then .midiSystemF0F7 (b.extractLsb' 0 3)
      else if b.getLsbD 2 = false then .midiSystemF8FB (b.extractLsb' 0 2)
      else if b.getLsbD 1 = false then .midiSystemFCFD (b.extractLsb' 0 1)
      else if b.getLsbD 0 = false then .midiSystemFE
      else .midiMetaStart

/-- The event with header `h` and, for a host write, data word `d` (R90). -/
def decodeEvent (h : Half) (d : Word) : Instr :=
  match (headerPort h).toNat with
  | 0 => decodeHost (h.getLsbD 12) (h.extractLsb' 0 12) d
  | 1 => decodeMidi (h.extractLsb' 0 8)
  | 2 => if h.getLsbD 3 then .tickFail else .tick (h.getLsbD 0) (h.getLsbD 1) (h.getLsbD 2)
  | 3 => if h.getLsbD 8 then .cbFail else .cb (h.extractLsb' 0 8)
  | 4 => .reset
  | 5 => .reservedPort5
  | 6 => .reservedPort6
  | _ => .reservedPort7

/-- The first event of a sequence of words, and the words after it. -/
def decode (ws : List Half) : Decoded :=
  match ws with
  | [] => .reject .noHeader
  | h :: rest =>
    if headerHasData h then
      match rest with
      | lo :: hi :: rest' => .ok (decodeEvent h (hi ++ lo)) rest'
      | _ => .reject .noDataWord
    else .ok (decodeEvent h 0) rest

/-! ## The encoder -/

/-- The words of a host read of address `a` (R91). -/
def encodeRead (a : BitVec 12) : List Half := [(0b0000 : BitVec 4) ++ a]

/-- The words of a host write of `d` to address `a` (R91). -/
def encodeWrite (a : BitVec 12) (d : Word) : List Half :=
  [(0b0001 : BitVec 4) ++ a, d.extractLsb' 0 16, d.extractLsb' 16 16]

/-- The address of register `off` of voice `v`: A[11:8] = 0x1, A[7:5] = v, A[4:0] = off (R91, 10_state.md R65). -/
def voiceAddr (v : Fin 8) (off : BitVec 5) : BitVec 12 :=
  (0x1 : BitVec 4) ++ BitVec.ofFin (w := 3) v ++ off

/-- The address `base + i` of one of eight registers in a row (10_state.md R62, R63). -/
def octAddr (base : BitVec 9) (i : Fin 8) : BitVec 12 := base ++ BitVec.ofFin (w := 3) i

/-- The words of a MIDI byte event (R92), its ignored bits 0. -/
def encodeMidi (b : Byte) : List Half := [(0x20 : BitVec 8) ++ b]

/-- The words of an instruction (R90 to R96), every ignored header bit 0. -/
def encode (i : Instr) : List Half :=
  match i with
  | .reset => [0x8000]
  | .tick a b btn =>
    [(0x400 : BitVec 12) ++ (0 : BitVec 1) ++ BitVec.ofBool btn ++ BitVec.ofBool b ++ BitVec.ofBool a]
  | .tickFail => [0x4008]
  | .cb t => [(0x60 : BitVec 8) ++ t]
  | .cbFail => [0x6100]
  | .midiData b => encodeMidi ((0 : BitVec 1) ++ b)
  | .midiNoteOffStatus c => encodeMidi ((0x8 : BitVec 4) ++ c)
  | .midiNoteOnStatus c => encodeMidi ((0x9 : BitVec 4) ++ c)
  | .midiPolyPressureStatus c => encodeMidi ((0xA : BitVec 4) ++ c)
  | .midiControlChangeStatus c => encodeMidi ((0xB : BitVec 4) ++ c)
  | .midiProgramChangeStatus c => encodeMidi ((0xC : BitVec 4) ++ c)
  | .midiChannelPressureStatus c => encodeMidi ((0xD : BitVec 4) ++ c)
  | .midiPitchBendStatus c => encodeMidi ((0xE : BitVec 4) ++ c)
  | .midiSystemF0F7 n => encodeMidi ((0b11110 : BitVec 5) ++ n)
  | .midiSystemF8FB n => encodeMidi ((0b111110 : BitVec 6) ++ n)
  | .midiSystemFCFD n => encodeMidi ((0b1111110 : BitVec 7) ++ n)
  | .midiSystemFE => encodeMidi 0xFE
  | .midiMetaStart => encodeMidi 0xFF
  | .reservedPort5 => [0xA000]
  | .reservedPort6 => [0xC000]
  | .reservedPort7 => [0xE000]
  | .rdErr => encodeRead 0x000
  | .wrErr d => encodeWrite 0x000 d
  | .rdRstat => encodeRead 0x001
  | .wrRstat d => encodeWrite 0x001 d
  | .rdEncCtrl => encodeRead 0x010
  | .wrEncCtrl d => encodeWrite 0x010 d
  | .rdEncValue => encodeRead 0x011
  | .wrEncValue d => encodeWrite 0x011 d
  | .rdEncButton => encodeRead 0x012
  | .wrEncButton d => encodeWrite 0x012 d
  | .rdEncDelta => encodeRead 0x013
  | .wrEncDelta d => encodeWrite 0x013 d
  | .rdEncAccel => encodeRead 0x014
  | .wrEncAccel d => encodeWrite 0x014 d
  | .rdEncHist => encodeRead 0x015
  | .wrEncHist d => encodeWrite 0x015 d
  | .rdEncKeydown => encodeRead 0x016
  | .wrEncKeydown d => encodeWrite 0x016 d
  | .rdEncDclk => encodeRead 0x017
  | .wrEncDclk d => encodeWrite 0x017 d
  | .rdEncPresc => encodeRead 0x018
  | .wrEncPresc d => encodeWrite 0x018 d
  | .rdEncBtnpeek => encodeRead 0x019
  | .wrEncBtnpeek d => encodeWrite 0x019 d
  | .rdTrigRaw => encodeRead 0x020
  | .wrTrigRaw d => encodeWrite 0x020 d
  | .rdTrigRise => encodeRead 0x021
  | .wrTrigRise d => encodeWrite 0x021 d
  | .rdTrigReleased => encodeRead 0x022
  | .wrTrigReleased d => encodeWrite 0x022 d
  | .rdTrigSteady => encodeRead 0x023
  | .wrTrigSteady d => encodeWrite 0x023 d
  | .rdTrigCnt i => encodeRead (octAddr 0x05 i)
  | .wrTrigCnt i d => encodeWrite (octAddr 0x05 i) d
  | .rdCv k => encodeRead (octAddr 0x06 k)
  | .wrCv k d => encodeWrite (octAddr 0x06 k) d
  | .rdMidiPstate => encodeRead 0x040
  | .wrMidiPstate d => encodeWrite 0x040 d
  | .rdMidiMeta => encodeRead 0x041
  | .wrMidiMeta d => encodeWrite 0x041 d
  | .rdVState v => encodeRead (voiceAddr v 0x00)
  | .wrVState v d => encodeWrite (voiceAddr v 0x00) d
  | .rdVMode v => encodeRead (voiceAddr v 0x01)
  | .wrVMode v d => encodeWrite (voiceAddr v 0x01) d
  | .rdVPhase v => encodeRead (voiceAddr v 0x02)
  | .wrVPhase v d => encodeWrite (voiceAddr v 0x02) d
  | .rdVPhaseinc v => encodeRead (voiceAddr v 0x03)
  | .wrVPhaseinc v d => encodeWrite (voiceAddr v 0x03) d
  | .rdVSpeed v => encodeRead (voiceAddr v 0x04)
  | .wrVSpeed v d => encodeWrite (voiceAddr v 0x04) d
  | .rdVPitchf v => encodeRead (voiceAddr v 0x05)
  | .wrVPitchf v d => encodeWrite (voiceAddr v 0x05) d
  | .rdVTranspose v => encodeRead (voiceAddr v 0x06)
  | .wrVTranspose v d => encodeWrite (voiceAddr v 0x06) d
  | .rdVLevel v => encodeRead (voiceAddr v 0x07)
  | .wrVLevel v d => encodeWrite (voiceAddr v 0x07) d
  | .rdVPan v => encodeRead (voiceAddr v 0x08)
  | .wrVPan v d => encodeWrite (voiceAddr v 0x08) d
  | .rdVMidich v => encodeRead (voiceAddr v 0x09)
  | .wrVMidich v d => encodeWrite (voiceAddr v 0x09) d
  | .rdVMidinote v => encodeRead (voiceAddr v 0x0A)
  | .wrVMidinote v d => encodeWrite (voiceAddr v 0x0A) d
  | .rdVNativenote v => encodeRead (voiceAddr v 0x0B)
  | .wrVNativenote v d => encodeWrite (voiceAddr v 0x0B) d
  | .rdVMidimode v => encodeRead (voiceAddr v 0x0C)
  | .wrVMidimode v d => encodeWrite (voiceAddr v 0x0C) d
  | .rdVCvrLevel v => encodeRead (voiceAddr v 0x0D)
  | .wrVCvrLevel v d => encodeWrite (voiceAddr v 0x0D) d
  | .rdVCvrPan v => encodeRead (voiceAddr v 0x0E)
  | .wrVCvrPan v d => encodeWrite (voiceAddr v 0x0E) d
  | .rdVCvrSpeed v => encodeRead (voiceAddr v 0x0F)
  | .wrVCvrSpeed v d => encodeWrite (voiceAddr v 0x0F) d
  | .rdVCvrPitch v => encodeRead (voiceAddr v 0x10)
  | .wrVCvrPitch v d => encodeWrite (voiceAddr v 0x10) d
  | .rdVBufBase v => encodeRead (voiceAddr v 0x11)
  | .wrVBufBase v d => encodeWrite (voiceAddr v 0x11) d
  | .rdVBufFrames v => encodeRead (voiceAddr v 0x12)
  | .wrVBufFrames v d => encodeWrite (voiceAddr v 0x12) d
  | .rdVBufChannels v => encodeRead (voiceAddr v 0x13)
  | .wrVBufChannels v d => encodeWrite (voiceAddr v 0x13) d
  | .reservedAccess w a d => if w then encodeWrite a d else encodeRead a

/-! ## The numbering of spec/opcode_table.json -/

/-- The words of the one instruction whose bits, numbered as spec/opcode_table.json numbers them, are the low `nbits`
bits of `w`, every bit above `nbits` being 0: the header in bits 15..0, a write's data word in bits 47..16. -/
def tableWords (nbits w : Nat) : List Half :=
  let bits := w % 2 ^ nbits
  let h := BitVec.ofNat 16 bits
  if headerHasData h then [h, BitVec.ofNat 16 (bits / 2 ^ 16), BitVec.ofNat 16 (bits / 2 ^ 32)] else [h]

/-- The instruction the decoder reads from an instruction of spec/opcode_table.json whose bits are `w`. -/
def decodeTableWord (nbits w : Nat) : Option Instr :=
  match decode (tableWords nbits w) with
  | .ok i _ => some i
  | .reject _ => none

end Sys2Proof
end

