-- ==== Sys2Proof/Machine/Fetch.lean ====
section
/-! DEFINITION. Where the next step comes from: RENDER's own turn, and the placing of an event in the inbox. -/

namespace Sys2Proof.Machine

/-- RENDER's turn (spec/20_memory.md R72): a frame while a callback is in progress (44_mixer.md R210), else the prologue
of the oldest held CB (41_trigger.md R150), else nothing is enabled and nothing changes (log 16). -/
def renderStep (s : State) : Result :=
  if s.rBusy then frameStep s
  else
    match s.held with
    | c :: rest => .next (prologue c.levels c.failed { s with held := rest })
    | [] => .next s

/-- The state with the event words `ws` first in the inbox and the next turn given to their agent. -/
def placeEvent (s : State) (ws : List Half) : State :=
  { s with inbox := ws ++ s.inbox, turns := .event :: s.turns }

end Sys2Proof.Machine
end

