-- ==== Sys2Proof/Machine/Step.lean ====
section
/-! DEFINITION. One step of the machine: one atomic transition of one agent (spec/00_scope.md R8, spec/20_memory.md R72,
R73). Whose transition it is, `turns` says; where it lists nothing, the next whole event of the inbox is consumed, and
RENDER moves when there is none (log 9). -/

namespace Sys2Proof.Machine

/-- The agent of the next event takes its step. Where the inbox holds no whole event, only RENDER can move (log 12). -/
def eventStep (s : State) : Result :=
  match decode s.inbox with
  | .ok i rest => exec i { s with inbox := rest }
  | .reject _ => renderStep s

/-- One step. -/
def step (s : State) : Host.Outcome State Fault Refusal :=
  match s.turns with
  | [] => eventStep s
  | .event :: ts => eventStep { s with turns := ts }
  | .render :: ts => renderStep { s with turns := ts }
  | .sample a d :: ts => .next ({ s with turns := ts }.storeSample a d)

/-- `s` with the instruction whose bits are the low `nbits` bits of `w` as the next event (log 18). -/
def State.withFetchWord (s : State) (nbits w : Nat) : State := placeEvent s (tableWords nbits w)

end Sys2Proof.Machine
end

