-- ==== Sys2Proof/Safety.lean ====
section
/-! DEFINITION. What the claims speak of: sequences of events and of RENDER turns, safe runs, and the invariants the
rules keep (spec/10_state.md R37, R40, spec/40_encoder.md R127, spec/44_mixer.md R216). -/

namespace Sys2Proof.Machine

/-! ## Sequences of steps -/

/-- The events of a list, one after the other, with no other agent's step between them. -/
def execAll : List Instr → State → Result
  | [], s => .next s
  | i :: rest, s =>
    match exec i s with
    | .next s' => execAll rest s'
    | .fault f => .fault f
    | .refused r => .refused r

/-- `n` turns of RENDER, with no other agent's step between them. -/
def renderTurns : Nat → State → Result
  | 0, s => .next s
  | n + 1, s =>
    match renderStep s with
    | .next s' => renderTurns n s'
    | .fault f => .fault f
    | .refused r => .refused r

/-- RENDER can accept a CB event at once (41_trigger.md R150). -/
abbrev Ready (s : State) : Prop := s.rBusy = false ∧ s.held = []

/-- A clean sequence of pin levels after the levels (a, b): each changes at most one of A, B
(40_encoder.md R128). -/
def cleanLevels : Bool → Bool → List (Bool × Bool) → Prop
  | _, _, [] => True
  | a, b, (a', b') :: rest => (a' = a ∨ b' = b) ∧ cleanLevels a' b' rest

/-- Button checks that see the listed button levels, with no read between them (40_encoder.md R130). -/
def buttonChecks (p : Params) : List Bool → Encoder → Encoder
  | [], c => c
  | btn :: rest, c => buttonChecks p rest (buttonCheck p { c with rawBtn := btn })

/-- Callbacks that see the listed trigger levels (41_trigger.md R153). -/
def debounceAll (p : Params) : List Byte → Trigger → Trigger
  | [], t => t
  | l :: rest, t => debounceAll p rest (debounce p l t)

/-- Every frame of the buffer that voice `x` describes has memory behind it: the host's duty of
45_host.md R294 (b). -/
def Covered (mem : Memory) (x : Voice) : Prop :=
  ∀ f : Nat, f < x.bufFrames.toNat → (readWord mem (sampleAddr x f)).isSome = true

/-! ## Reals in binary32 -/

/-- `k` is the floor of the finite value `x` (00_scope.md R6). -/
abbrev IsFloor (x : F32) (k : Int) : Prop := k * oneUnits ≤ units x ∧ units x < (k + 1) * oneUnits

/-- `k` is the ceiling of the finite value `x`. -/
abbrev IsCeil (x : F32) (k : Int) : Prop := (k - 1) * oneUnits < units x ∧ units x ≤ k * oneUnits

/-- `k` is the finite value `x` rounded toward zero. -/
abbrev IsTrunc (x : F32) (k : Int) : Prop := if 0 ≤ units x then IsFloor x k else IsCeil x k

/-- `q` is RNE of the real of `n` units, for a real that does not overflow (00_scope.md R6): no finite binary32 value is
nearer, and where another is as near the fraction of `q` is even. -/
def RoundsTo (n : Int) (q : F32) : Prop :=
  isFinite q = true ∧
  (∀ z : F32, isFinite z = true → |units q - n| ≤ |units z - n|) ∧
  (∀ z : F32, isFinite z = true → units z ≠ units q → |units z - n| = |units q - n| → q.getLsbD 0 = false)

/-! ## Safe runs -/

/-- A safe run of `n` steps: RENDER is never stuck (20_memory.md R75 (a)). -/
def SafeRun (n : Nat) (s : State) : Prop := ∀ f, Sys2Proof.core.run n s ≠ .fault f

/-! ## The register invariant -/

/-- The encoder's fields are in the ranges of R40 and R127; Closed is never produced (R125 (e)); under the two-bit
strategy a loaded history keeps bits [3:2] at 0 (10_state.md R44). -/
abbrev Encoder.Ok (p : Params) (c : Encoder) : Prop :=
  c.accel.toNat ≤ p.accelTop ∧
  c.keyDown.toNat ≤ p.holdTicks + 1 ∧
  c.dclk.toNat ≤ p.doubleClickTicks ∧
  c.presc.toNat < p.buttonCheckInterval ∧
  c.button ≠ .closed ∧
  (c.strategy = false → c.primed = true → c.hist.toNat < 4)

/-- The counters stop at the threshold + 1, and the snapshots are those of the counters (R40, 41_trigger.md R151). -/
abbrev Trigger.Ok (p : Params) (t : Trigger) : Prop :=
  (∀ i : Fin 8, (t.cnt.get i).toNat ≤ p.debounceThreshold + 1) ∧
  (∀ i : Fin 8, t.rise.getLsbD i.val = decide ((t.cnt.get i).toNat = p.debounceThreshold)) ∧
  (∀ i : Fin 8, t.released.getLsbD i.val = decide (t.cnt.get i = 0))

/-- The parser collects data bytes only under a channel status, waits for a second one only where the class has two,
and keeps `data1` and `metaLeft` at 0 outside the states that use them (R40; 42_midi.md R160 to R171). -/
abbrev Midi.Ok (m : Midi) : Prop :=
  ((m.pstate = .ch1 ∨ m.pstate = .ch2) → 0x80 ≤ m.status.toNat ∧ m.status.toNat ≤ 0xEF) ∧
  ((m.pstate ≠ .ch1 ∧ m.pstate ≠ .ch2) → m.status = 0) ∧
  (m.pstate = .ch2 → m.status.extractLsb' 4 4 ≠ 0xC ∧ m.status.extractLsb' 4 4 ≠ 0xD) ∧
  (m.pstate ≠ .ch2 → m.data1 = 0) ∧
  (m.pstate = .metaPay ↔ m.metaLeft ≠ 0)

/-- The voice's whole-number fields are in their ranges (R40); a voice that is not Suspended is bound (R36, R37 (c)). A
Suspended voice has no raced word (20_memory.md R75 (c)). -/
abbrev Voice.Ok (x : Voice) : Prop :=
  x.level.toNat ≤ 1000 ∧
  (-1000 ≤ x.pan.toInt ∧ x.pan.toInt ≤ 1000) ∧
  (1 ≤ x.midiChannel.toNat ∧ x.midiChannel.toNat ≤ 16) ∧
  (x.cvrLevel.toNat ≤ 8 ∧ x.cvrPan.toNat ≤ 8 ∧ x.cvrSpeed.toNat ≤ 8 ∧ x.cvrPitch.toNat ≤ 8) ∧
  x.bufFrames.toNat ≤ 2 ^ 24 ∧
  (x.state ≠ .suspended → x.bound = true) ∧
  (x.state = .suspended → x.raced = [])

/-- The position of RENDER is legal (10_state.md R50, R40). -/
abbrev RenderOk (s : State) : Prop :=
  s.rFrame.toNat < s.cfg.framesPerCallback ∧ (s.rBusy = false → s.rFrame = 0)

/-- Every register but the binary32 ones is in its legal range, and sample memory is in canonical form. -/
abbrev State.RegistersOk (s : State) : Prop :=
  s.cfg.Legal ∧ s.enc.Ok s.cfg ∧ s.trig.Ok s.cfg ∧ s.midi.Ok ∧ (∀ v : Fin 8, (s.voices.get v).Ok) ∧ RenderOk s ∧
    Memory.wf s.mem = true

/-! ## The binary32 invariant -/

/-- A binary32 value in [0, 1]. -/
abbrev InUnit (x : F32) : Prop := fLe f0 x = true ∧ fLe x f1 = true

/-- A voice's binary32 fields are in their ranges (R40): the phase in [0, 1] (R23, R37 (b)), the stored increment
finite, the pitch factor finite with |x| ≤ 65536. -/
abbrev Voice.FloatsOk (x : Voice) : Prop :=
  InUnit x.phase ∧ isFinite x.phaseIncrement = true ∧ (pitchOperand x.pitchFactor).isSome = true

/-- Every binary32 register is in its legal range. -/
abbrev State.FloatsOk (s : State) : Prop :=
  (∀ k : Fin 8, InUnit (s.cv.get k)) ∧ ∀ v : Fin 8, (s.voices.get v).FloatsOk

end Sys2Proof.Machine
end

