-- ==== Sys2Proof/Certificates/Slice0/Obligations.lean ====
section
/-! DEFINITION. The statements for the provers. `nan` values in them are the model's free NaN results (log 5). -/

open Sys2Proof Sys2Proof.Machine

/-! ## Encoding -/

/-- Decode and encode agree on every well-formed instruction, whatever words follow (30_encoding.md R90 to R96, R102). -/
def Obligations.DecodeEncodeRoundTrip : Prop :=
  ∀ (i : Instr) (rest : List Half), WellFormed i = true → decode (encode i ++ rest) = .ok i rest

/-- What the decoder answers is well-formed, and it takes exactly the words of that instruction's length: three for a
host write and one otherwise (30_encoding.md R102; 10_state.md R66). -/
def Obligations.DecodedIsWellFormed : Prop :=
  ∀ (ws : List Half) (i : Instr) (rest : List Half), decode ws = .ok i rest →
    WellFormed i = true ∧ ws.length = (encode i).length + rest.length

/-- The words of 95_test_vectors.md 2.1 (N1 to N11, N13), written out there from the formats of R91 to R96, decode to
the events they stand for. A sanity statement. Of the write (N4) the vectors give the header 0x1167 and the 32-bit data
word 500; that its low half comes first, so that the words are 0x1167, 0x01F4, 0x0000, is the model's choice (log 10). -/
def Obligations.SpecWordsDecode : Prop :=
  decode [0x8000] = .ok .reset [] ∧
  decode [0x9FFF] = .ok .reset [] ∧
  decode [0x0011] = .ok .rdEncValue [] ∧
  decode [0x1167, 0x01F4, 0x0000] = .ok (.wrVLevel 3 500) [] ∧
  decode [0x01A2] = .ok (.rdVPhase 5) [] ∧
  decode [0x2090] = .ok (.midiNoteOnStatus 0) [] ∧
  decode [0x20FF] = .ok .midiMetaStart [] ∧
  decode [0x4005] = .ok (.tick true false true) [] ∧
  decode [0x4008] = .ok .tickFail [] ∧
  decode [0x6081] = .ok (.cb 0x81) [] ∧
  decode [0x6100] = .ok .cbFail [] ∧
  decode [0x0200] = .ok (.reservedAccess false 0x200 0) []

/-- Header bits that a format does not use have no effect (30_encoding.md R90, R103 (e)): two headers of one port that
agree on the bits the format uses stand for the same event. On port 000 every bit is used: W tells read from write
(R91). With W = 0 the event is the one whose words are the header alone, and no data word has a part in it; with W = 1
it is the one whose words are this header and a data word. -/
def Obligations.IgnoredHeaderBits : Prop :=
  (∀ (h h' : Half) (d : Word), headerPort h = headerPort h' →
    (headerPort h = 1 → h.extractLsb' 0 8 = h'.extractLsb' 0 8 → decodeEvent h d = decodeEvent h' d) ∧
    (headerPort h = 2 → h.extractLsb' 0 4 = h'.extractLsb' 0 4 → decodeEvent h d = decodeEvent h' d) ∧
    (headerPort h = 2 → h.getLsbD 3 = true → h'.getLsbD 3 = true → decodeEvent h d = decodeEvent h' d) ∧
    (headerPort h = 3 → h.extractLsb' 0 9 = h'.extractLsb' 0 9 → decodeEvent h d = decodeEvent h' d) ∧
    (headerPort h = 3 → h.getLsbD 8 = true → h'.getLsbD 8 = true → decodeEvent h d = decodeEvent h' d) ∧
    (4 ≤ (headerPort h).toNat → decodeEvent h d = decodeEvent h' d)) ∧
  (∀ h : Half, headerPort h = 0 →
    (h.getLsbD 12 = false → ∀ d : Word, decodeEvent h d = decodeEvent h 0 ∧ encode (decodeEvent h d) = [h]) ∧
    (h.getLsbD 12 = true → ∀ d : Word,
      (encode (decodeEvent h d)).head? = some h ∧ (encode (decodeEvent h d)).length = 3))

/-- An event on port 101, 110 or 111 is consumed and has no effect (30_encoding.md R96). (That the event is taken first
where no turn is listed is log 9's choice.) -/
def Obligations.ReservedPortsHaveNoEffect : Prop :=
  (∀ s, exec .reservedPort5 s = .next s) ∧
  (∀ s, exec .reservedPort6 s = .next s) ∧
  (∀ s, exec .reservedPort7 s = .next s) ∧
  (∀ (h : Half) (rest : List Half) (s : State), 5 ≤ (headerPort h).toNat → s.turns = [] → s.inbox = h :: rest →
    step s = .next { s with inbox := rest })

/-! ## Steps -/

/-- A step runs the decoded instruction: where the inbox begins with the event `i`, and the turn is its agent's or no
turn is listed, the step is `exec i` on the state without that event and that turn (20_memory.md R72, R73). R72 leaves
the order of enabled steps free. That the list `turns` says whose turn it is, and that the event goes before an enabled
frame where `turns` is empty, is the model's choice (log 9); every other order is some value of `turns`. -/
def Obligations.StepRunsDecodedInstruction : Prop :=
  ∀ (s : State) (i : Instr) (rest : List Half), decode s.inbox = .ok i rest →
    (s.turns = [] → step s = exec i { s with inbox := rest }) ∧
    (∀ ts, s.turns = .event :: ts → step s = exec i { s with inbox := rest, turns := ts })

/-- RENDER's turn is a frame step while a callback is in progress, else the prologue of the oldest CB that waits, else
nothing (20_memory.md R72, 41_trigger.md R150, 44_mixer.md R210). The turn is RENDER's where `turns` says so (log 9),
and where it is an event's turn, or no turn is listed, and the inbox holds no whole event: it is empty, or holds only
part of a host write's words. That RENDER moves then is the model's choice (log 9, log 12), and so is that an idle turn
changes nothing (log 16). -/
def Obligations.RenderTakesItsTurn : Prop :=
  (∀ (s : State) (ts : List Turn),
    (s.turns = .render :: ts ∨
      ((s.turns = [] ∧ ts = [] ∨ s.turns = .event :: ts) ∧ ∃ why, decode s.inbox = .reject why)) →
    (s.rBusy = true → step s = frameStep { s with turns := ts }) ∧
    (∀ c rest, s.rBusy = false → s.held = c :: rest →
      step s = .next (prologue c.levels c.failed { s with turns := ts, held := rest })) ∧
    (Ready s → step s = .next { s with turns := ts })) ∧
  (∀ ws : List Half, (∃ why, decode ws = .reject why) ↔
    (ws = [] ∨ ∃ h rest, ws = h :: rest ∧ headerPort h = 0 ∧ h.getLsbD 12 = true ∧ rest.length < 2))

/-- RESET applies the reset state of 70_reset_and_hazards.md R320 to every register and touches nothing else, so neither
sample memory nor a parameter. (A voice's `raced` is the model's own field, log 6: nothing is said of it.) -/
def Obligations.ResetAppliesResetState : Prop :=
  ∀ s : State, ∃ t : State, exec .reset s = .next t ∧
    t = { s with voices := t.voices, enc := t.enc, trig := t.trig, cv := t.cv, midi := t.midi, rBusy := t.rBusy,
                 rFrame := t.rFrame, err := t.err } ∧
    (∀ v : Fin 8, { t.voices.get v with raced := [] } =
      { state := .suspended, mode := .triggered, phase := 0x00000000, phaseIncrement := 0x00000000, speed := 1000,
        pitchFactor := 0x3F800000, transpose := 0, level := 1000, pan := 0, midiChannel := BitVec.ofNat 5 (v.val + 1),
        midiNote := 60, nativeNote := 60, midiMode := .off, cvrLevel := 0, cvrPan := 0, cvrSpeed := 0, cvrPitch := 0,
        bufBase := 0, bufFrames := 0, bufChannels := 0, raced := [] }) ∧
    t.enc =
      { strategy := false, accelEn := false, steps := .one, dclkEn := true, delta := 0, accel := 0, hist := 0,
        primed := false, rawA := false, rawB := false, rawBtn := false, keyDown := 0, dclk := 0, presc := 0,
        button := .opened } ∧
    t.trig.raw = 0x00 ∧ (∀ i : Fin 8, t.trig.cnt.get i = 0) ∧ t.trig.rise = 0x00 ∧ t.trig.released = 0xFF ∧
    (∀ k : Fin 8, t.cv.get k = 0x00000000) ∧
    t.midi = { pstate := .idle, status := 0x00, data1 := 0, metaLeft := 0 } ∧
    t.rBusy = false ∧ t.rFrame = 0 ∧ t.err = 0

/-- With legal parameters the power-on state has every register in its legal range, and RESET leaves it as it is
(70_reset_and_hazards.md R322, 10_state.md R40). The parameters that the model's reset state takes are legal
(00_scope.md R3); which ones they are is the model's choice (log 1, log 2). -/
def Obligations.PowerOnStateIsLegal : Prop :=
  (∀ p : Params, p.Legal →
    (State.powerOn p).RegistersOk ∧ (State.powerOn p).FloatsOk ∧
      exec .reset (State.powerOn p) = .next (State.powerOn p)) ∧
  Config.params.Legal ∧ State.reset = State.powerOn Config.params

/-- No step writes a parameter (70_reset_and_hazards.md R320: "which are fixed for the run"). -/
def Obligations.StepKeepsParameters : Prop :=
  ∀ s t : State, step s = .next t → t.cfg = s.cfg

/-! ## Encoder -/

/-- A tick always completes, touches the encoder only, keeps its configuration, and takes over the pin levels; a failed
tick acts as a tick at the last valid levels (40_encoder.md R120, R121). -/
def Obligations.TickCompletes : Prop :=
  (∀ (s : State) (a b btn : Bool), ∃ t : State, exec (.tick a b btn) s = .next t ∧
    t = { s with enc := t.enc } ∧
    t.enc.rawA = a ∧ t.enc.rawB = b ∧ t.enc.rawBtn = btn ∧ t.enc.primed = true ∧
    t.enc.strategy = s.enc.strategy ∧ t.enc.accelEn = s.enc.accelEn ∧ t.enc.steps = s.enc.steps ∧
    t.enc.dclkEn = s.enc.dclkEn) ∧
  (∀ s : State, ∃ t : State, exec .tickFail s = .next t ∧ t = { s with enc := t.enc } ∧
    exec (.tick s.enc.rawA s.enc.rawB s.enc.rawBtn) s = .next t)

/-- The two-bit decoder (40_encoder.md R122): the code of the pins is 0, 1, 2, 3 for (A,B) = 00, 01, 11, 10. An
unprimed history is loaded and counts nothing; one code up counts +1, one code down −1, and each becomes the history; the
same code or a two-pin jump changes neither. -/
def Obligations.TwoBitDecoderCounts : Prop :=
  ∀ (s t : State) (a b btn : Bool) (code : Nat),
    code = (match a, b with
      | false, false => 0
      | false, true => 1
      | true, true => 2
      | true, false => 3) →
    s.enc.strategy = false → exec (.tick a b btn) s = .next t →
    (s.enc.primed = false → t.enc.hist.toNat = code ∧ t.enc.delta = s.enc.delta ∧ t.enc.primed = true) ∧
    (s.enc.primed = true →
      let prev := s.enc.hist.toNat % 4
      t.enc.primed = true ∧
      (code = (prev + 1) % 4 → t.enc.hist.toNat = code ∧ t.enc.delta = s.enc.delta + 1) ∧
      (prev = (code + 1) % 4 → t.enc.hist.toNat = code ∧ t.enc.delta = s.enc.delta - 1) ∧
      (code = prev ∨ code = (prev + 2) % 4 → t.enc.hist = s.enc.hist ∧ t.enc.delta = s.enc.delta))

/-- The table decoder (40_encoder.md R123): raw = A·2 + B; the history becomes {previous raw, current raw} at every
tick; 00→01, 01→11, 11→10, 10→00 count +1, the reverse changes −1, anything else 0; an unprimed history is loaded with
{raw, raw} and counts nothing. The table is the spec's own inference from R122 ([derived], 92_eei_decisions.md D28), so
this rests on it. -/
def Obligations.TableDecoderCounts : Prop :=
  ∀ (s t : State) (a b btn : Bool) (raw : Nat), raw = 2 * a.toNat + b.toNat →
    s.enc.strategy = true → exec (.tick a b btn) s = .next t →
    (s.enc.primed = false → t.enc.hist.toNat = 5 * raw ∧ t.enc.delta = s.enc.delta ∧ t.enc.primed = true) ∧
    (s.enc.primed = true →
      let prev := s.enc.hist.toNat % 4
      t.enc.primed = true ∧ t.enc.hist.toNat = 4 * prev + raw ∧
      t.enc.delta =
        (if (prev, raw) = (0, 1) ∨ (prev, raw) = (1, 3) ∨ (prev, raw) = (3, 2) ∨ (prev, raw) = (2, 0) then
          s.enc.delta + 1
        else if (raw, prev) = (0, 1) ∨ (raw, prev) = (1, 3) ∨ (raw, prev) = (3, 2) ∨ (raw, prev) = (2, 0) then
          s.enc.delta - 1
        else s.enc.delta))

/-- Acceleration (40_encoder.md R124): every tick takes ACCEL_DEC off the level, not below 0; a tick on which a step
occurred (the delta changed) then adds ACCEL_INC, not above ACCEL_TOP. Both whatever ACCEL_EN holds. -/
def Obligations.AccelerationFollowsTicks : Prop :=
  ∀ (s t : State) (a b btn : Bool), s.cfg.Legal → s.enc.accel.toNat ≤ s.cfg.accelTop →
    exec (.tick a b btn) s = .next t →
    (t.enc.delta = s.enc.delta → t.enc.accel.toNat = s.enc.accel.toNat - s.cfg.accelDec) ∧
    (t.enc.delta ≠ s.enc.delta →
      t.enc.accel.toNat = min (s.enc.accel.toNat - s.cfg.accelDec + s.cfg.accelInc) s.cfg.accelTop)

/-- The prescaler and the button check (40_encoder.md R125, R126). `b1` and `w1` are the button state and the window
after the press or release handling, before the countdown. -/
def Obligations.ButtonCheckFollowsTheRule : Prop :=
  ∀ (s t : State) (a b btn : Bool), s.cfg.Legal → exec (.tick a b btn) s = .next t →
    (s.enc.presc.toNat + 1 < s.cfg.buttonCheckInterval →
      t.enc.presc.toNat = s.enc.presc.toNat + 1 ∧ t.enc.button = s.enc.button ∧ t.enc.keyDown = s.enc.keyDown ∧
        t.enc.dclk = s.enc.dclk) ∧
    (s.cfg.buttonCheckInterval ≤ s.enc.presc.toNat + 1 →
      ∃ (b1 : ButtonState) (w1 : Nat),
        t.enc.presc = 0 ∧
        (btn = true → t.enc.keyDown.toNat = min (s.enc.keyDown.toNat + 1) (s.cfg.holdTicks + 1) ∧
          b1 = (if s.cfg.holdTicks < t.enc.keyDown.toNat then .held else s.enc.button) ∧ w1 = s.enc.dclk.toNat) ∧
        (btn = false → t.enc.keyDown = 0 ∧
          (b1, w1) =
            (if s.enc.keyDown = 0 then (s.enc.button, s.enc.dclk.toNat)
            else if s.enc.button = .held then (.released, 0)
            else if 0 < s.enc.dclk.toNat ∧ s.enc.dclkEn = true then (.doubleClicked, 0)
            else (s.enc.button, if s.enc.dclkEn then s.cfg.doubleClickTicks else 1))) ∧
        t.enc.dclk.toNat = w1 - 1 ∧
        t.enc.button = (if w1 = 1 then .clicked else b1))

/-- A press held for n button checks with no window open gives Held from check HOLD_TICKS + 1 on and changes nothing
before; its release gives Released and leaves no window (40_encoder.md R130 (a)). -/
def Obligations.HeldOncePerPress : Prop :=
  ∀ (p : Params) (c : Encoder) (n : Nat), p.Legal → c.keyDown = 0 → c.dclk = 0 → 1 ≤ n →
    (n ≤ p.holdTicks → (buttonChecks p (List.replicate n true) c).button = c.button) ∧
    (p.holdTicks < n → (buttonChecks p (List.replicate n true) c).button = .held ∧
      (buttonChecks p (List.replicate n true ++ [false]) c).button = .released ∧
      (buttonChecks p (List.replicate n true ++ [false]) c).dclk = 0)

/-- Short presses, with double-click on and no window open (40_encoder.md R130 (b), (c)). One press whose release is
followed by m checks with the button up: no change before check DOUBLECLICK_TICKS − 1 after the release, and Clicked
from that check on. Two presses whose releases are j = u + d + 1 checks apart, j ≤ DOUBLECLICK_TICKS − 1: DoubleClicked
at the second release, and no Clicked after it. -/
def Obligations.ShortPressesGiveClicks : Prop :=
  ∀ (p : Params) (c : Encoder) (n : Nat), p.Legal → c.keyDown = 0 → c.dclk = 0 → c.dclkEn = true → c.button ≠ .held →
    1 ≤ n → n ≤ p.holdTicks →
    (∀ m : Nat, (buttonChecks p (List.replicate n true ++ List.replicate (m + 1) false) c).button =
      (if m + 1 < p.doubleClickTicks then c.button else .clicked)) ∧
    (∀ u d m : Nat, 1 ≤ d → d ≤ p.holdTicks → u + d + 1 ≤ p.doubleClickTicks - 1 →
      (buttonChecks p (List.replicate n true ++ List.replicate (u + 1) false ++ List.replicate d true ++
        List.replicate (m + 1) false) c).button = .doubleClicked)

/-- Strategy agreement (40_encoder.md R128): on a clean sequence of ticks, both strategies primed at the same levels
with the same delta and acceleration hold the same delta and acceleration after every tick. R128
is the spec's own inference from R122, R123 and R124 ([derived]). -/
def Obligations.StrategiesAgreeOnCleanTicks : Prop :=
  ∀ (ticks : List ((Bool × Bool) × Bool)) (s0 s1 : State) (a b : Bool), cleanLevels a b (ticks.map Prod.fst) →
    s0.cfg = s1.cfg → s0.enc.strategy = false → s1.enc.strategy = true →
    s0.enc.primed = true → s1.enc.primed = true →
    s0.enc.hist = grayCode a b → s1.enc.hist.extractLsb' 0 2 = rawCode a b →
    s0.enc.delta = s1.enc.delta → s0.enc.accel = s1.enc.accel →
    ∃ t0 t1 : State,
      execAll (ticks.map fun x => .tick x.1.1 x.1.2 x.2) s0 = .next t0 ∧
      execAll (ticks.map fun x => .tick x.1.1 x.1.2 x.2) s1 = .next t1 ∧
      t0.enc.delta = t1.enc.delta ∧ t0.enc.accel = t1.enc.accel

/-- A long idle period drives the acceleration back to 0 (40_encoder.md R127): n ticks at the levels the decoder has
already seen leave the level n · ACCEL_DEC lower, not below 0, and the delta as it is. -/
def Obligations.IdleTicksEmptyAcceleration : Prop :=
  ∀ (n : Nat) (s : State) (a b btn : Bool), s.cfg.Legal → s.enc.accel.toNat ≤ s.cfg.accelTop → s.enc.primed = true →
    (s.enc.strategy = false → s.enc.hist = grayCode a b) →
    (s.enc.strategy = true → s.enc.hist.extractLsb' 0 2 = rawCode a b) →
    ∃ t : State, execAll (List.replicate n (.tick a b btn)) s = .next t ∧
      t.enc.accel.toNat = s.enc.accel.toNat - n * s.cfg.accelDec ∧ t.enc.delta = s.enc.delta

/-- RD ENC_VALUE (40_encoder.md R131): with q = floor(delta / steps), the response is 0 for q = 0 and otherwise
±(1 + (level >> 8, if ACCEL_EN)) with the sign of q; the residue delta mod steps stays. -/
def Obligations.EncValueReadsNotches : Prop :=
  ∀ (s : State) (n q m r : Int),
    n = (match s.enc.steps with
      | .one => 1
      | .two => 2
      | .four => 4) →
    q = s.enc.delta.toInt / n →
    m = 1 + (if s.enc.accelEn then (s.enc.accel.toNat : Int) / 256 else 0) →
    r = (if q < 0 then -m else if 0 < q then m else 0) →
    exec .rdEncValue s =
      .next { s with enc := { s.enc with delta := BitVec.ofInt 16 (s.enc.delta.toInt % n) },
                     responses := s.responses ++ [BitVec.ofInt 32 r] }

/-- The other encoder reads (40_encoder.md R132 to R139, 45_host.md R240). ENC_BUTTON goes back to Open unless it is
Held; the others have no side effect. -/
def Obligations.EncoderReadsRespond : Prop :=
  ∀ (s : State) (bc sc : Nat),
    bc = (match s.enc.button with
      | .opened => 0
      | .closed => 1
      | .held => 2
      | .released => 3
      | .clicked => 4
      | .doubleClicked => 5) →
    sc = (match s.enc.steps with
      | .one => 0
      | .two => 1
      | .four => 2) →
    exec .rdEncButton s =
      .next { s with enc := { s.enc with button := if s.enc.button = .held then .held else .opened },
                     responses := s.responses ++ [BitVec.ofNat 32 bc] } ∧
    exec .rdEncDelta s = .next { s with responses := s.responses ++ [BitVec.ofInt 32 s.enc.delta.toInt] } ∧
    exec .rdEncAccel s = .next { s with responses := s.responses ++ [BitVec.ofNat 32 s.enc.accel.toNat] } ∧
    exec .rdEncHist s =
      .next { s with responses := s.responses ++ [BitVec.ofNat 32 (s.enc.hist.toNat + 16 * s.enc.primed.toNat +
        32 * s.enc.rawA.toNat + 64 * s.enc.rawB.toNat + 128 * s.enc.rawBtn.toNat)] } ∧
    exec .rdEncKeydown s = .next { s with responses := s.responses ++ [BitVec.ofNat 32 s.enc.keyDown.toNat] } ∧
    exec .rdEncDclk s = .next { s with responses := s.responses ++ [BitVec.ofNat 32 s.enc.dclk.toNat] } ∧
    exec .rdEncPresc s = .next { s with responses := s.responses ++ [BitVec.ofNat 32 s.enc.presc.toNat] } ∧
    exec .rdEncBtnpeek s = .next { s with responses := s.responses ++ [BitVec.ofNat 32 bc] } ∧
    exec .rdEncCtrl s =
      .next { s with responses := s.responses ++ [BitVec.ofNat 32 (s.enc.strategy.toNat + 2 * s.enc.accelEn.toNat +
        4 * sc + 16 * s.enc.dclkEn.toNat)] }

/-- WR ENC_CTRL (45_host.md R241): the named bits are written; a change of STRATEGY unprimes the history; STEPS code 3
keeps STEPS and sets ILLEGAL_VALUE (bit 1). -/
def Obligations.EncCtrlWriteFollowsTheRule : Prop :=
  ∀ (s : State) (d : Word), ∃ t : State, exec (.wrEncCtrl d) s = .next t ∧
    t = { s with enc := { s.enc with strategy := d.getLsbD 0, primed := t.enc.primed, accelEn := d.getLsbD 1,
                                     steps := t.enc.steps, dclkEn := d.getLsbD 4 },
                 err := t.err } ∧
    t.enc.primed = (if d.getLsbD 0 = s.enc.strategy then s.enc.primed else false) ∧
    (d.toNat / 4 % 4 = 0 → t.enc.steps = .one ∧ t.err = s.err) ∧
    (d.toNat / 4 % 4 = 1 → t.enc.steps = .two ∧ t.err = s.err) ∧
    (d.toNat / 4 % 4 = 2 → t.enc.steps = .four ∧ t.err = s.err) ∧
    (d.toNat / 4 % 4 = 3 → t.enc.steps = s.enc.steps ∧ t.err = s.err ||| 0b010)

/-! ## Callbacks -/

/-- CB t, accepted (41_trigger.md R150, R151): it completes; frames are enabled; the trigger registers are those of the
debounce of `l`; nothing but trigger state, voices and RENDER's position is touched. -/
def Obligations.CallbackDebounces : Prop :=
  ∀ (s : State) (l : Byte), s.cfg.Legal → Ready s → ∃ t : State, exec (.cb l) s = .next t ∧
    t = { s with trig := t.trig, voices := t.voices, rBusy := true, rFrame := 0 } ∧
    t.trig.raw = l ∧
    ∀ i : Fin 8,
      (l.getLsbD i.val = true →
        (t.trig.cnt.get i).toNat = min ((s.trig.cnt.get i).toNat + 1) (s.cfg.debounceThreshold + 1)) ∧
      (l.getLsbD i.val = false → t.trig.cnt.get i = 0) ∧
      t.trig.rise.getLsbD i.val = decide ((t.trig.cnt.get i).toNat = s.cfg.debounceThreshold) ∧
      t.trig.released.getLsbD i.val = decide (t.trig.cnt.get i = 0)

/-- A CB event that arrives while a callback is in progress, or behind one that waits, waits in RENDER's queue and
changes nothing else; an accepted CB! acts as a CB at the levels of the latest prologue (41_trigger.md R150,
60_exceptions.md R304; the queue as a list is log 11). -/
def Obligations.BusyCallbackWaits : Prop :=
  (∀ (s : State) (l : Byte), s.rBusy = true ∨ s.held ≠ [] →
    exec (.cb l) s = .next { s with held := s.held ++ [⟨l, false⟩] }) ∧
  (∀ s : State, s.rBusy = true ∨ s.held ≠ [] → exec .cbFail s = .next { s with held := s.held ++ [⟨0, true⟩] }) ∧
  (∀ s : State, Ready s → ∃ t : State, exec .cbFail s = .next t ∧ exec (.cb s.trig.raw) s = .next t ∧ t.rBusy = true)

/-- Edge count (41_trigger.md R153): in a run of callbacks that see input i active, from counter 0, the rise bit is 1
after the DEBOUNCE_THRESHOLD-th and after no other, nor after the callback that then sees it inactive. -/
def Obligations.OneEdgePerHeldInput : Prop :=
  ∀ (p : Params) (t : Trigger) (i : Fin 8) (run : List Byte), p.Legal → t.cnt.get i = 0 → run ≠ [] →
    (∀ l ∈ run, l.getLsbD i.val = true) →
    (debounceAll p run t).rise.getLsbD i.val = decide (run.length = p.debounceThreshold) ∧
    ∀ l : Byte, l.getLsbD i.val = false → (debounceAll p (run ++ [l]) t).rise.getLsbD i.val = false

/-- CV application in an accepted callback (43_voice.md R190): a Suspended voice is skipped whole; otherwise each of
level, pan, speed and pitchFactor is overwritten from channel r − 1 if its route r is not 0, and every other field but
phase and state (mode evaluation's) stays. Then the four maps for a CV value c in [0, 1], each product and sum rounded
as 00_scope.md R6 says: level floor(RNE(1000 c)) (R191); pan floor(RNE(2000 c)) − 1000 (R192), the floor being the trunc
of a value that is not negative, and no clamp biting; speed trunc(RNE(MIN + RNE((MAX − MIN) c))), clamped (R193; MIN and
MAX are parameters, in the range of log 1, DEDUCED); pitchFactor EXP2F(RNE(RNE(5 c) − 2)) (R194, whose form 5c − 2 the
spec derives from SP's end points). -/
def Obligations.CallbackAppliesCv : Prop :=
  (∀ (s : State) (l : Byte), Ready s → ∃ t : State, exec (.cb l) s = .next t ∧ ∀ v : Fin 8,
    let x := s.voices.get v
    let y := t.voices.get v
    let nan := freeNaN s.draws v.val 0
    (x.state = .suspended → y = x) ∧
    (x.state ≠ .suspended →
      y = { x with level := y.level, pan := y.pan, speed := y.speed, pitchFactor := y.pitchFactor, phase := y.phase,
                   state := y.state } ∧
      (x.cvrLevel = 0 → y.level = x.level) ∧
      (x.cvrPan = 0 → y.pan = x.pan) ∧
      (x.cvrSpeed = 0 → y.speed = x.speed) ∧
      (x.cvrPitch = 0 → y.pitchFactor = x.pitchFactor) ∧
      ∀ k : Fin 8,
        (x.cvrLevel.toNat = k.val + 1 → y.level = cvLevel nan (s.cv.get k)) ∧
        (x.cvrPan.toNat = k.val + 1 → y.pan = cvPan nan (s.cv.get k)) ∧
        (x.cvrSpeed.toNat = k.val + 1 → y.speed = cvSpeed s.cfg nan (s.cv.get k)) ∧
        (x.cvrPitch.toNat = k.val + 1 → y.pitchFactor = cvPitch nan (s.cv.get k)))) ∧
  (∀ (p : Params) (nan c : F32), InUnit c →
    (∃ m : F32, RoundsTo (1000 * units c) m ∧ IsFloor m (cvLevel nan c).toNat ∧ (cvLevel nan c).toNat ≤ 1000) ∧
    (∃ m : F32, RoundsTo (2000 * units c) m ∧ IsFloor m ((cvPan nan c).toInt + 1000) ∧
      -1000 ≤ (cvPan nan c).toInt ∧ (cvPan nan c).toInt ≤ 1000) ∧
    (p.Legal → ∃ (m y : F32) (k : Int), RoundsTo ((p.speedCvMax - p.speedCvMin) * units c) m ∧
      RoundsTo (p.speedCvMin * oneUnits + units m) y ∧ IsTrunc y k ∧
      (cvSpeed p nan c).toInt = min (max k (-32768)) 32767) ∧
    (∃ m y : F32, RoundsTo (5 * units c) m ∧ RoundsTo (units m - 2 * oneUnits) y ∧ cvPitch nan c = exp2f y))

/-- Mode evaluation in an accepted callback (43_voice.md R200 to R203), from the trigger bits of the same prologue and
after CV application: the direction of a restart is that of the increment of the fields the prologue leaves (R197). And
the sign of an increment is sign(speed) × sign(pitchFactor) (44_mixer.md R212 (c)): for a bound voice with a legal pitch
factor the increment is finite, its sign bit is set where exactly one of the two is negative, a speed of 0 gives a zero,
and it is below 0 where its sign bit is set and it is not a zero (R197 (a)). That the increment is finite is the spec's
own inference ([derived] in R212). -/
def Obligations.CallbackEvaluatesModes : Prop :=
  (∀ (s : State) (l : Byte), Ready s → ∃ t : State, exec (.cb l) s = .next t ∧ ∀ v : Fin 8,
    let x := s.voices.get v
    let y := t.voices.get v
    let rise := t.trig.rise.getLsbD v.val
    let released := t.trig.released.getLsbD v.val
    let start := if fLt (increment (freeNaN s.draws v.val 0) y) f0 then f1 else f0
    (x.state = .suspended → y = x) ∧
    (x.state ≠ .suspended →
      (x.mode = .looped → y.state = .playing ∧ y.phase = x.phase) ∧
      (x.mode ≠ .looped → rise = true → y.state = .playing ∧ y.phase = start) ∧
      (x.mode = .gated → rise = false → released = true → y.state = .silent ∧ y.phase = x.phase) ∧
      (x.mode = .gated → rise = false → released = false → y.state = x.state ∧ y.phase = x.phase) ∧
      (x.mode = .triggered → rise = false → y.state = x.state ∧ y.phase = x.phase))) ∧
  (∀ (nan : F32) (x : Voice), x.bufFrames ≠ 0 → (pitchOperand x.pitchFactor).isSome = true →
    isFinite (increment nan x) = true ∧
    isNeg (increment nan x) = (decide (x.speed.toInt < 0) != isNeg x.pitchFactor) ∧
    (x.speed = 0 → magUnits (increment nan x) = 0) ∧
    (fLt (increment nan x) f0 = true ↔ isNeg (increment nan x) = true ∧ magUnits (increment nan x) ≠ 0))

/-- Pitch CV spans two octaves down to three octaves up (43_voice.md R194): 0.25 ≤ CVPitch(c) ≤ 8.0 for c in [0, 1]. -/
def Obligations.PitchCvSpansFiveOctaves : Prop :=
  ∀ nan c : F32, InUnit c → fLe 0x3E800000 (cvPitch nan c) = true ∧ fLe (cvPitch nan c) 0x41000000 = true

/-- EXP2F has the properties (a), (b), (c) that 92_eei_decisions.md D5 assumes. How the model builds such a function
is its own choice (log 3, log 4). -/
def Obligations.Exp2fMeetsD5 : Prop :=
  (∀ k : Int, -126 ≤ k → k ≤ 127 → exp2f (flt k) = pow2 k ∧ magUnits (pow2 k) = 2 ^ (k + 149).toNat ∧
    isNeg (pow2 k) = false) ∧
  (∀ t : F32, fLe (flt (-126)) t = true → isFinite t = true → fLt f0 (exp2f t) = true) ∧
  (∀ t u : F32, fLe t u = true → fLe (exp2f t) (exp2f u) = true)

/-! ## MIDI -/

/-- Status bytes (42_midi.md R162, R163, R164): a channel status becomes the running status and discards what was
collected; 0xF0 to 0xFE cancel running status; 0xFF does, and may start a meta pattern. Nothing but the parser moves. -/
def Obligations.StatusBytesResynchronize : Prop :=
  ∀ s : State,
    (∀ c : BitVec 4, exec (.midiNoteOffStatus c) s = .next { s with midi := ⟨.ch1, BitVec.ofNat 8 (0x80 + c.toNat), 0, 0⟩ }) ∧
    (∀ c : BitVec 4, exec (.midiNoteOnStatus c) s = .next { s with midi := ⟨.ch1, BitVec.ofNat 8 (0x90 + c.toNat), 0, 0⟩ }) ∧
    (∀ c : BitVec 4,
      exec (.midiPolyPressureStatus c) s = .next { s with midi := ⟨.ch1, BitVec.ofNat 8 (0xA0 + c.toNat), 0, 0⟩ }) ∧
    (∀ c : BitVec 4,
      exec (.midiControlChangeStatus c) s = .next { s with midi := ⟨.ch1, BitVec.ofNat 8 (0xB0 + c.toNat), 0, 0⟩ }) ∧
    (∀ c : BitVec 4,
      exec (.midiProgramChangeStatus c) s = .next { s with midi := ⟨.ch1, BitVec.ofNat 8 (0xC0 + c.toNat), 0, 0⟩ }) ∧
    (∀ c : BitVec 4,
      exec (.midiChannelPressureStatus c) s = .next { s with midi := ⟨.ch1, BitVec.ofNat 8 (0xD0 + c.toNat), 0, 0⟩ }) ∧
    (∀ c : BitVec 4, exec (.midiPitchBendStatus c) s = .next { s with midi := ⟨.ch1, BitVec.ofNat 8 (0xE0 + c.toNat), 0, 0⟩ }) ∧
    (∀ n : BitVec 3, exec (.midiSystemF0F7 n) s = .next { s with midi := ⟨.idle, 0x00, 0, 0⟩ }) ∧
    (∀ n : BitVec 2, exec (.midiSystemF8FB n) s = .next { s with midi := ⟨.idle, 0x00, 0, 0⟩ }) ∧
    (∀ n : BitVec 1, exec (.midiSystemFCFD n) s = .next { s with midi := ⟨.idle, 0x00, 0, 0⟩ }) ∧
    exec .midiSystemFE s = .next { s with midi := ⟨.idle, 0x00, 0, 0⟩ } ∧
    exec .midiMetaStart s = .next { s with midi := ⟨.meta1, 0x00, 0, 0⟩ }

/-- Data bytes that dispatch nothing (42_midi.md R161, R165, R175): in IDLE a data byte is discarded; the first data
byte completes an ignored message under 0xC_ and 0xD_ and is collected under every other class; the second one of an
0xA_, 0xB_ or 0xE_ message only takes the parser back to CH1 with its running status. -/
def Obligations.DataBytesAreFramed : Prop :=
  ∀ (s : State) (b : BitVec 7) (cls : Nat), cls = s.midi.status.toNat / 16 →
    (s.midi.pstate = .idle → exec (.midiData b) s = .next s) ∧
    (s.midi.pstate = .ch1 → (cls = 0xC ∨ cls = 0xD) → exec (.midiData b) s = .next s) ∧
    (s.midi.pstate = .ch1 → ¬(cls = 0xC ∨ cls = 0xD) →
      exec (.midiData b) s = .next { s with midi := { s.midi with data1 := b, pstate := .ch2 } }) ∧
    (s.midi.pstate = .ch2 → (cls = 0xA ∨ cls = 0xB ∨ cls = 0xE) →
      exec (.midiData b) s = .next { s with midi := { s.midi with data1 := 0, pstate := .ch1 } })

/-- Note-On (42_midi.md R166, R167, R173): the data byte `b` that completes 0x9c n b restarts every voice that is not
Suspended, listens on channel c + 1 and is Pitched (it takes the note n), or Percussion with n its native note; every
other voice stays. The direction of the restart is that of the increment with the new note (R197). -/
def Obligations.NoteOnRestartsVoices : Prop :=
  ∀ (s : State) (c : BitVec 4) (b : BitVec 7), s.midi.pstate = .ch2 → s.midi.status = (0x9 : BitVec 4) ++ c →
    (s.cfg.vel0IsNoteOff = false ∨ b ≠ 0) →
    ∃ t : State, exec (.midiData b) s = .next t ∧
      t = { s with voices := t.voices, midi := { s.midi with data1 := 0, pstate := .ch1 } } ∧
      ∀ v : Fin 8,
        let x := s.voices.get v
        let y := t.voices.get v
        let hit := x.state ≠ .suspended ∧ x.midiChannel.toNat = c.toNat + 1 ∧
          (x.midiMode = .pitched ∨ x.midiMode = .percussion ∧ s.midi.data1 = x.nativeNote)
        (hit → y = { x with midiNote := s.midi.data1, state := .playing,
                            phase := if fLt (increment (freeNaN s.draws v.val 0) { x with midiNote := s.midi.data1 }) f0
                              then f1 else f0 }) ∧
        (¬hit → y = x)

/-- Note-Off (42_midi.md R174), and a Note-On of velocity 0 where VEL0_IS_NOTE_OFF holds (R172): every Pitched voice
on channel c + 1 that is not Suspended goes Silent, whatever the note; every other voice stays. -/
def Obligations.NoteOffSilencesPitchedVoices : Prop :=
  ∀ (s : State) (c : BitVec 4) (b : BitVec 7), s.midi.pstate = .ch2 →
    (s.midi.status = (0x8 : BitVec 4) ++ c ∨
      s.midi.status = (0x9 : BitVec 4) ++ c ∧ s.cfg.vel0IsNoteOff = true ∧ b = 0) →
    ∃ t : State, exec (.midiData b) s = .next t ∧
      t = { s with voices := t.voices, midi := { s.midi with data1 := 0, pstate := .ch1 } } ∧
      ∀ v : Fin 8,
        let x := s.voices.get v
        let hit := x.state ≠ .suspended ∧ x.midiChannel.toNat = c.toNat + 1 ∧ x.midiMode = .pitched
        (hit → t.voices.get v = { x with state := .silent }) ∧ (¬hit → t.voices.get v = x)

/-- The meta pattern, byte by byte (42_midi.md R168 to R171). -/
def Obligations.MetaPatternIsFramed : Prop :=
  ∀ (s : State) (b : BitVec 7),
    (s.midi.pstate = .meta1 →
      exec (.midiData b) s = .next { s with midi := { s.midi with pstate := if b = 0 then .meta2 else .idle } }) ∧
    (s.midi.pstate = .meta2 →
      exec (.midiData b) s = .next { s with midi := { s.midi with pstate := if b = 0 then .metaLen else .idle } }) ∧
    (s.midi.pstate = .metaLen →
      exec (.midiData b) s =
        .next { s with midi := { s.midi with metaLeft := b, pstate := if b = 0 then .idle else .metaPay },
                       diag := if b = 0 then s.diag ++ [.done] else s.diag }) ∧
    (s.midi.pstate = .metaPay →
      exec (.midiData b) s =
        .next { s with midi := { s.midi with metaLeft := s.midi.metaLeft - 1,
                                             pstate := if s.midi.metaLeft = 1 then .idle else .metaPay },
                       diag := s.diag ++ .byte b :: (if s.midi.metaLeft = 1 then [.done] else []) })

/-- A whole meta message passes its payload to the diagnostic stream, in order, ends it with DIAG_END, leaves the parser
in IDLE and touches nothing else, whatever the parser was doing (42_midi.md R164, R168 to R171). -/
def Obligations.MetaPayloadPassesThrough : Prop :=
  ∀ (s : State) (payload : List (BitVec 7)), payload.length ≤ 127 →
    execAll (.midiMetaStart :: .midiData 0 :: .midiData 0 :: .midiData (BitVec.ofNat 7 payload.length) ::
        payload.map .midiData) s =
      .next { s with midi := ⟨.idle, 0x00, 0, 0⟩, diag := s.diag ++ payload.map .byte ++ [.done] }

/-- Running status (42_midi.md R176): after a complete Note-On or Note-Off, two further data bytes act as if its status
byte stood before them. -/
def Obligations.RunningStatusRepeatsTheStatus : Prop :=
  ∀ (s : State) (c : BitVec 4) (n v n' v' : BitVec 7),
    execAll [.midiNoteOnStatus c, .midiData n, .midiData v, .midiData n', .midiData v'] s =
      execAll [.midiNoteOnStatus c, .midiData n, .midiData v, .midiNoteOnStatus c, .midiData n', .midiData v'] s ∧
    execAll [.midiNoteOffStatus c, .midiData n, .midiData v, .midiData n', .midiData v'] s =
      execAll [.midiNoteOffStatus c, .midiData n, .midiData v, .midiNoteOffStatus c, .midiData n', .midiData v'] s

/-! ## Host writes -/

/-- Numeric parameter writes to a voice that is not Suspended (45_host.md R252, R254 to R259, R261 to R264): the whole
data word is clamped into the field, and nothing else changes. -/
def Obligations.ParameterWritesClamp : Prop :=
  ∀ (s : State) (v : Fin 8) (d : Word) (x : Voice), x = s.voices.get v → x.state ≠ .suspended →
    exec (.wrVSpeed v d) s = .next { s with
      voices := s.voices.set v { x with speed := BitVec.ofInt 16 (min (max d.toInt (-32768)) 32767) } } ∧
    exec (.wrVTranspose v d) s = .next { s with
      voices := s.voices.set v { x with transpose := BitVec.ofInt 8 (min (max d.toInt (-128)) 127) } } ∧
    exec (.wrVLevel v d) s = .next { s with
      voices := s.voices.set v { x with level := BitVec.ofNat 10 (min d.toNat 1000) } } ∧
    exec (.wrVPan v d) s = .next { s with
      voices := s.voices.set v { x with pan := BitVec.ofInt 11 (min (max d.toInt (-1000)) 1000) } } ∧
    exec (.wrVMidich v d) s = .next { s with
      voices := s.voices.set v { x with midiChannel := BitVec.ofNat 5 (min (max d.toNat 1) 16) } } ∧
    exec (.wrVMidinote v d) s = .next { s with
      voices := s.voices.set v { x with midiNote := BitVec.ofNat 7 (min d.toNat 127) } } ∧
    exec (.wrVNativenote v d) s = .next { s with
      voices := s.voices.set v { x with nativeNote := BitVec.ofNat 7 (min d.toNat 127) } } ∧
    exec (.wrVCvrLevel v d) s = .next { s with
      voices := s.voices.set v { x with cvrLevel := BitVec.ofNat 4 (min d.toNat 8) } } ∧
    exec (.wrVCvrPan v d) s = .next { s with
      voices := s.voices.set v { x with cvrPan := BitVec.ofNat 4 (min d.toNat 8) } } ∧
    exec (.wrVCvrSpeed v d) s = .next { s with
      voices := s.voices.set v { x with cvrSpeed := BitVec.ofNat 4 (min d.toNat 8) } } ∧
    exec (.wrVCvrPitch v d) s = .next { s with
      voices := s.voices.set v { x with cvrPitch := BitVec.ofNat 4 (min d.toNat 8) } }

/-- V.MODE, V.MIDIMODE and V.PITCHF writes to a voice that is not Suspended (45_host.md R251, R260, R253): a legal value
is stored; any other sets ILLEGAL_VALUE (bit 1) and changes nothing else. -/
def Obligations.CheckedParameterWrites : Prop :=
  ∀ (s : State) (v : Fin 8) (d : Word) (x : Voice), x = s.voices.get v → x.state ≠ .suspended →
    (d = 0 → exec (.wrVMode v d) s = .next { s with voices := s.voices.set v { x with mode := .triggered } }) ∧
    (d = 1 → exec (.wrVMode v d) s = .next { s with voices := s.voices.set v { x with mode := .looped } }) ∧
    (d = 2 → exec (.wrVMode v d) s = .next { s with voices := s.voices.set v { x with mode := .gated } }) ∧
    (2 < d.toNat → exec (.wrVMode v d) s = .next { s with err := s.err ||| 0b010 }) ∧
    (d = 0 → exec (.wrVMidimode v d) s = .next { s with voices := s.voices.set v { x with midiMode := .off } }) ∧
    (d = 1 → exec (.wrVMidimode v d) s = .next { s with voices := s.voices.set v { x with midiMode := .percussion } }) ∧
    (d = 2 → exec (.wrVMidimode v d) s = .next { s with voices := s.voices.set v { x with midiMode := .pitched } }) ∧
    (2 < d.toNat → exec (.wrVMidimode v d) s = .next { s with err := s.err ||| 0b010 }) ∧
    (isFinite d = true ∧ magUnits d ≤ 65536 * oneUnits →
      exec (.wrVPitchf v d) s = .next { s with voices := s.voices.set v { x with pitchFactor := d } }) ∧
    (¬(isFinite d = true ∧ magUnits d ≤ 65536 * oneUnits) →
      exec (.wrVPitchf v d) s = .next { s with err := s.err ||| 0b010 })

/-- The freeze (45_host.md R268): every parameter write to a Suspended voice, and every buffer write to a voice that is
not Suspended, sets FROZEN_WRITE (bit 2) and changes nothing else, whatever the value. -/
def Obligations.FrozenWritesOnlySetErr : Prop :=
  ∀ (s : State) (v : Fin 8) (d : Word),
    ((s.voices.get v).state = .suspended →
      ∀ i ∈ [Instr.wrVMode v d, .wrVSpeed v d, .wrVPitchf v d, .wrVTranspose v d, .wrVLevel v d, .wrVPan v d,
          .wrVMidich v d, .wrVMidinote v d, .wrVNativenote v d, .wrVMidimode v d, .wrVCvrLevel v d, .wrVCvrPan v d,
          .wrVCvrSpeed v d, .wrVCvrPitch v d],
        exec i s = .next { s with err := s.err ||| 0b100 }) ∧
    ((s.voices.get v).state ≠ .suspended →
      ∀ i ∈ [Instr.wrVBufBase v d, .wrVBufFrames v d, .wrVBufChannels v d],
        exec i s = .next { s with err := s.err ||| 0b100 })

/-- Buffer descriptor writes to a Suspended voice (45_host.md R265, R266, R267). -/
def Obligations.BufferWritesWhileSuspended : Prop :=
  ∀ (s : State) (v : Fin 8) (d : Word) (x : Voice), x = s.voices.get v → x.state = .suspended →
    exec (.wrVBufBase v d) s = .next { s with voices := s.voices.set v { x with bufBase := d } } ∧
    exec (.wrVBufFrames v d) s = .next { s with
      voices := s.voices.set v { x with bufFrames := BitVec.ofNat 25 (min d.toNat (2 ^ 24)) } } ∧
    exec (.wrVBufChannels v d) s = .next { s with
      voices := s.voices.set v { x with bufChannels := BitVec.ofNat 8 (min d.toNat 255) } }

/-- V.STATE (45_host.md R250): a code above 2 sets ILLEGAL_VALUE; Silent or Playing without a buffer sets UNSUSP_NOBUF;
otherwise the state is stored. Nothing else changes. (Of `raced`, the model's own field, nothing is said where the voice
becomes Suspended, log 6.) -/
def Obligations.StateWriteFollowsTheRule : Prop :=
  ∀ (s : State) (v : Fin 8) (d : Word) (x : Voice), x = s.voices.get v →
    (2 < d.toNat → exec (.wrVState v d) s = .next { s with err := s.err ||| 0b010 }) ∧
    (d.toNat < 2 → (x.bufFrames = 0 ∨ x.bufChannels = 0) →
      exec (.wrVState v d) s = .next { s with err := s.err ||| 0b001 }) ∧
    (d = 0 → x.bufFrames ≠ 0 → x.bufChannels ≠ 0 →
      exec (.wrVState v d) s = .next { s with voices := s.voices.set v { x with state := .silent } }) ∧
    (d = 1 → x.bufFrames ≠ 0 → x.bufChannels ≠ 0 →
      exec (.wrVState v d) s = .next { s with voices := s.voices.set v { x with state := .playing } }) ∧
    (d = 2 → ∃ raced : List Word, exec (.wrVState v d) s =
      .next { s with voices := s.voices.set v { x with state := .suspended, raced := raced } })

/-- Writes to read-only and read-clear registers are ignored and set no ERR bit (45_host.md R296). -/
def Obligations.ReadOnlyWritesIgnored : Prop :=
  ∀ (s : State) (d : Word) (j : Fin 8),
    ∀ i ∈ [Instr.wrRstat d, .wrEncDelta d, .wrEncAccel d, .wrEncHist d, .wrEncKeydown d, .wrEncDclk d, .wrEncPresc d,
        .wrEncBtnpeek d, .wrTrigRaw d, .wrTrigRise d, .wrTrigReleased d, .wrTrigSteady d, .wrTrigCnt j d,
        .wrMidiPstate d, .wrMidiMeta d, .wrVPhase j d, .wrVPhaseinc j d, .wrEncValue d, .wrEncButton d],
      exec i s = .next s

/-- Reserved addresses (45_host.md R295): a read answers 0, a write is ignored and sets no ERR bit; and every access to
an address that 10_state.md R66 lists decodes to that instruction. -/
def Obligations.ReservedAddressesAreInert : Prop :=
  (∀ (s : State) (a : BitVec 12) (d : Word),
    exec (.reservedAccess false a d) s = .next { s with responses := s.responses ++ [0x00000000] } ∧
    exec (.reservedAccess true a d) s = .next s) ∧
  (∀ (a : BitVec 12) (d : Word), isReservedAddr a = true →
    decodeHost false a d = .reservedAccess false a 0 ∧ decodeHost true a d = .reservedAccess true a d)

/-- WR ERR clears the bits written as 1 (45_host.md R243); WR CV[k] stores +0.0 for a NaN or a value ≤ 0, 1.0 for a
value ≥ 1, and any other value as it is (R246), so that the CV value is always in [0, 1]. -/
def Obligations.ErrAndCvWrites : Prop :=
  (∀ (s : State) (d : Word), exec (.wrErr d) s = .next { s with err := s.err &&& ~~~(d.setWidth 3) }) ∧
  (∀ (s : State) (k : Fin 8) (d : Word),
    ∃ x : F32, exec (.wrCv k d) s = .next { s with cv := s.cv.set k x } ∧ InUnit x ∧
      ((isNaN d = true ∨ fLe d 0x00000000 = true) → x = 0x00000000) ∧
      (fLe 0x3F800000 d = true → x = 0x3F800000) ∧
      (fLt 0x00000000 d = true → fLt d 0x3F800000 = true → x = d))

/-! ## Host reads -/

/-- Voice register reads, offsets 0x00 to 0x09 (45_host.md R273 to R282): the response, and no side effect. -/
def Obligations.VoiceReadsRespond : Prop :=
  ∀ (s : State) (v : Fin 8) (x : Voice), x = s.voices.get v →
    exec (.rdVState v) s = .next { s with responses := s.responses ++ [match x.state with
      | .silent => 0
      | .playing => 1
      | .suspended => 2] } ∧
    exec (.rdVMode v) s = .next { s with responses := s.responses ++ [match x.mode with
      | .triggered => 0
      | .looped => 1
      | .gated => 2] } ∧
    exec (.rdVPhase v) s = .next { s with responses := s.responses ++ [x.phase] } ∧
    exec (.rdVPhaseinc v) s = .next { s with responses := s.responses ++ [x.phaseIncrement] } ∧
    exec (.rdVSpeed v) s = .next { s with responses := s.responses ++ [BitVec.ofInt 32 x.speed.toInt] } ∧
    exec (.rdVPitchf v) s = .next { s with responses := s.responses ++ [x.pitchFactor] } ∧
    exec (.rdVTranspose v) s = .next { s with responses := s.responses ++ [BitVec.ofInt 32 x.transpose.toInt] } ∧
    exec (.rdVLevel v) s = .next { s with responses := s.responses ++ [BitVec.ofNat 32 x.level.toNat] } ∧
    exec (.rdVPan v) s = .next { s with responses := s.responses ++ [BitVec.ofInt 32 x.pan.toInt] } ∧
    exec (.rdVMidich v) s = .next { s with responses := s.responses ++ [BitVec.ofNat 32 x.midiChannel.toNat] }

/-- Voice register reads, offsets 0x0A to 0x13 (45_host.md R283 to R292): the response, and no side effect. -/
def Obligations.VoiceRouteAndBufferReadsRespond : Prop :=
  ∀ (s : State) (v : Fin 8) (x : Voice), x = s.voices.get v →
    exec (.rdVMidinote v) s = .next { s with responses := s.responses ++ [BitVec.ofNat 32 x.midiNote.toNat] } ∧
    exec (.rdVNativenote v) s = .next { s with responses := s.responses ++ [BitVec.ofNat 32 x.nativeNote.toNat] } ∧
    exec (.rdVMidimode v) s = .next { s with responses := s.responses ++ [match x.midiMode with
      | .off => 0
      | .percussion => 1
      | .pitched => 2] } ∧
    exec (.rdVCvrLevel v) s = .next { s with responses := s.responses ++ [BitVec.ofNat 32 x.cvrLevel.toNat] } ∧
    exec (.rdVCvrPan v) s = .next { s with responses := s.responses ++ [BitVec.ofNat 32 x.cvrPan.toNat] } ∧
    exec (.rdVCvrSpeed v) s = .next { s with responses := s.responses ++ [BitVec.ofNat 32 x.cvrSpeed.toNat] } ∧
    exec (.rdVCvrPitch v) s = .next { s with responses := s.responses ++ [BitVec.ofNat 32 x.cvrPitch.toNat] } ∧
    exec (.rdVBufBase v) s = .next { s with responses := s.responses ++ [x.bufBase] } ∧
    exec (.rdVBufFrames v) s = .next { s with responses := s.responses ++ [BitVec.ofNat 32 x.bufFrames.toNat] } ∧
    exec (.rdVBufChannels v) s = .next { s with responses := s.responses ++ [BitVec.ofNat 32 x.bufChannels.toNat] }

/-- Reads of ERR, RSTAT, the CV, trigger and MIDI registers (45_host.md R242, R244, R245, R247 to R249, R269 to R272):
the response, and no side effect. -/
def Obligations.StatusReadsRespond : Prop :=
  ∀ (s : State) (j : Fin 8) (pc : Nat),
    pc = (match s.midi.pstate with
      | .idle => 0
      | .ch1 => 1
      | .ch2 => 2
      | .meta1 => 3
      | .meta2 => 4
      | .metaLen => 5
      | .metaPay => 6) →
    exec .rdErr s = .next { s with responses := s.responses ++ [BitVec.ofNat 32 s.err.toNat] } ∧
    exec .rdRstat s =
      .next { s with responses := s.responses ++ [BitVec.ofNat 32 (256 * s.rFrame.toNat + s.rBusy.toNat)] } ∧
    exec (.rdCv j) s = .next { s with responses := s.responses ++ [s.cv.get j] } ∧
    exec .rdTrigRaw s = .next { s with responses := s.responses ++ [BitVec.ofNat 32 s.trig.raw.toNat] } ∧
    exec .rdTrigRise s = .next { s with responses := s.responses ++ [BitVec.ofNat 32 s.trig.rise.toNat] } ∧
    exec .rdTrigReleased s = .next { s with responses := s.responses ++ [BitVec.ofNat 32 s.trig.released.toNat] } ∧
    (∃ w : Word, exec .rdTrigSteady s = .next { s with responses := s.responses ++ [w] } ∧ w.toNat < 256 ∧
      ∀ i : Fin 8, w.getLsbD i.val = decide (s.cfg.debounceThreshold ≤ (s.trig.cnt.get i).toNat)) ∧
    exec (.rdTrigCnt j) s = .next { s with responses := s.responses ++ [BitVec.ofNat 32 (s.trig.cnt.get j).toNat] } ∧
    exec .rdMidiPstate s = .next { s with responses := s.responses ++
      [BitVec.ofNat 32 (pc + 256 * s.midi.status.toNat + 65536 * s.midi.data1.toNat)] } ∧
    exec .rdMidiMeta s = .next { s with responses := s.responses ++ [BitVec.ofNat 32 s.midi.metaLeft.toNat] }

/-! ## Frames -/

/-- A frame step that completes emits exactly one OUT and moves RENDER's position by FrameAdvance; it touches voices,
the audio stream, RENDER's position and the model's draw counter only (44_mixer.md R210, R218). OUT's two sums start at
+0.0 and take the Playing voices, and no other, in index order (R215): each adds its sample times level/1000 times
1 − (pan/2000 + 0.5) on the left, times pan/2000 + 0.5 on the right. Each sample is the lookup at the voice's pre-wrap
phase (R214, spelled out in SoloVoiceFrameOutput). -/
def Obligations.FrameEmitsOneOut : Prop :=
  ∀ s t : State, frameStep s = .next t →
    (∃ samples : Fin 8 → F32,
      (∀ v : Fin 8, (s.voices.get v).state = .playing →
        let x := s.voices.get v
        let nan := freeNaN s.draws v.val
        let inc := increment (nan 0) x
        lookup s.mem s.draws v.val (nan 2) x (fadd (nan 1) x.phase inc) inc = .ok (samples v)) ∧
      let nan := fun v : Fin 8 => freeNaN s.draws v.val
      let y := fun v : Fin 8 =>
        fmul (nan v 2) (samples v) (fdiv (nan v 2) (flt (s.voices.get v).level.toNat) f1000)
      let right := fun v : Fin 8 =>
        fadd (nan v 2) (fdiv (nan v 2) (flt (s.voices.get v).pan.toInt) f2000) fHalf
      let left := fun v : Fin 8 => fsub (nan v 2) f1 (right v)
      let sum := fun (site : Nat) (gain : Fin 8 → F32) =>
        [0, 1, 2, 3, 4, 5, 6, 7].foldl (fun (acc : F32) (v : Fin 8) =>
          if (s.voices.get v).state = .playing then fadd (nan v site) acc (fmul (nan v 2) (y v) (gain v)) else acc)
          0x00000000
      t.audio = s.audio ++ [⟨sum 3 left, sum 4 right⟩]) ∧
    t = { s with voices := t.voices, audio := t.audio, rBusy := t.rBusy, rFrame := t.rFrame, draws := s.draws + 1 } ∧
    (s.rFrame.toNat + 1 = s.cfg.framesPerCallback → t.rBusy = false ∧ t.rFrame = 0) ∧
    (s.rFrame.toNat + 1 ≠ s.cfg.framesPerCallback → t.rBusy = s.rBusy ∧ t.rFrame = s.rFrame + 1)

/-- What a frame step does to each voice (44_mixer.md R211, R212, R213, R216, R217): a Suspended voice is not touched;
any other, Playing or Silent, stores its increment ((speed/1000) × pitchFactor × EXP2F(e/12)) / N, left to right, with
e = midiNote − nativeNote + transpose; advances by it; wraps where the sum p2 is outside [0, 1), and goes Silent there
in Triggered mode; no other field changes. The wrapped phase is p2 − floor(p2), rounded once, and +0.0 where that rounds
to 1.0, so that after the step the phase is in [0, 1) strictly. (Of a p2 that is not finite, which no run reaches, R216
says nothing, log 13; StepKeepsPhaseInUnit says that p2 is finite.) -/
def Obligations.FrameAdvancesEveryVoice : Prop :=
  ∀ s t : State, frameStep s = .next t → ∀ v : Fin 8,
    let x := s.voices.get v
    let y := t.voices.get v
    let nan := freeNaN s.draws v.val 0
    let e : Int := (x.midiNote.toNat : Int) - x.nativeNote.toNat + x.transpose.toInt
    let inc := fdiv nan (fmul nan (fmul nan (fdiv nan (flt x.speed.toInt) f1000) x.pitchFactor)
      (exp2f (fdiv nan (flt e) f12))) (flt x.bufFrames.toNat)
    let p2 := fadd (freeNaN s.draws v.val 1) x.phase inc
    let wraps := fLe f1 p2 = true ∨ fLt p2 f0 = true
    increment nan x = inc ∧
    (x.state = .suspended → y = x) ∧
    (x.state ≠ .suspended →
      y = { x with phaseIncrement := inc, phase := y.phase, state := y.state } ∧
      (wraps → y.state = (if x.mode = .triggered then .silent else x.state)) ∧
      (¬wraps → y.phase = p2 ∧ y.state = x.state) ∧
      (isFinite p2 = true → wraps → ∃ (k : Int) (q : F32), IsFloor p2 k ∧
        RoundsTo (units p2 - k * oneUnits) q ∧ isNeg q = false ∧ y.phase = (if q = 0x3F800000 then 0x00000000 else q)) ∧
      (isFinite p2 = true → fLe 0x00000000 y.phase = true ∧ fLt y.phase 0x3F800000 = true))

/-- With no Playing voice a frame completes and emits OUT(+0.0, +0.0), whatever phases, samples and gains are
(44_mixer.md R221). -/
def Obligations.SilentFrameEmitsZero : Prop :=
  ∀ s : State, (∀ v : Fin 8, (s.voices.get v).state ≠ .playing) →
    ∃ t : State, frameStep s = .next t ∧ t.audio = s.audio ++ [⟨0x00000000, 0x00000000⟩]

/-- The lookup (44_mixer.md R214): the position pos = p2 × N; forward (inc ≥ 0) the frames floor(pos) and the next one,
with fraction pos − floor(pos), in reverse ceil(pos) and the one before, with fraction ceil(pos) − pos; both indices
modulo N; a + fr × (b − a) of the two samples read. Both reads happen, so one without memory behind it is a fault (R214
(f), 20_memory.md R75). With exactly one Playing voice a completed frame emits that voice's contribution (R215): the
sample at the pre-wrap phase, times level/1000, times 1 − (pan/2000 + 0.5) to the left and pan/2000 + 0.5 to the right,
each added to +0.0. (Any number of Playing voices: FrameEmitsOneOut. That pos is finite: StepKeepsPhaseInUnit.) -/
def Obligations.SoloVoiceFrameOutput : Prop :=
  (∀ (mem : Memory) (draw voice : Nat) (nan : F32) (x : Voice) (p2 inc pos fr : F32) (i0 i1 : Int),
    pos = fmul nan p2 (flt x.bufFrames.toNat) → isFinite pos = true →
    (if fLe 0x00000000 inc then IsFloor pos i0 ∧ i1 = i0 + 1 ∧ fr = fsub nan pos (flt i0)
      else IsCeil pos i0 ∧ i1 = i0 - 1 ∧ fr = fsub nan (flt i0) pos) →
    (∀ a b, sampleRead mem draw voice 0 x (i0 % x.bufFrames.toNat) = .ok a →
      sampleRead mem draw voice 1 x (i1 % x.bufFrames.toNat) = .ok b →
      lookup mem draw voice nan x p2 inc = .ok (fadd nan a (fmul nan fr (fsub nan b a)))) ∧
    (∀ f, sampleRead mem draw voice 0 x (i0 % x.bufFrames.toNat) = .error f →
      lookup mem draw voice nan x p2 inc = .error f) ∧
    (∀ a f, sampleRead mem draw voice 0 x (i0 % x.bufFrames.toNat) = .ok a →
      sampleRead mem draw voice 1 x (i1 % x.bufFrames.toNat) = .error f →
      lookup mem draw voice nan x p2 inc = .error f)) ∧
  (∀ (s t : State) (v : Fin 8), (s.voices.get v).state = .playing →
    (∀ w : Fin 8, w ≠ v → (s.voices.get w).state ≠ .playing) → frameStep s = .next t →
    let x := s.voices.get v
    let nan := freeNaN s.draws v.val
    let inc := increment (nan 0) x
    let p2 := fadd (nan 1) x.phase inc
    let right := fadd (nan 2) (fdiv (nan 2) (flt x.pan.toInt) f2000) fHalf
    ∃ sample : F32, lookup s.mem s.draws v.val (nan 2) x p2 inc = .ok sample ∧
      t.audio = s.audio ++
        [⟨fadd (nan 3) f0 (fmul (nan 2) (fmul (nan 2) sample (fdiv (nan 2) (flt x.level.toNat) f1000))
            (fsub (nan 2) f1 right)),
          fadd (nan 4) f0 (fmul (nan 2) (fmul (nan 2) sample (fdiv (nan 2) (flt x.level.toNat) f1000)) right)⟩])

/-- One callback emits exactly FRAMES_PER_CALLBACK frames (44_mixer.md R218): from frame 0, that many RENDER turns, if
none is stuck, emit that many OUT items and end the callback; after fewer the callback is still in progress. -/
def Obligations.CallbackEmitsAllItsFrames : Prop :=
  ∀ (s t : State) (n : Nat), s.cfg.Legal → s.rBusy = true → s.rFrame = 0 → n ≤ s.cfg.framesPerCallback →
    renderTurns n s = .next t →
    t.audio.length = s.audio.length + n ∧
    (n = s.cfg.framesPerCallback → t.rBusy = false ∧ t.rFrame = 0) ∧
    (n < s.cfg.framesPerCallback → t.rBusy = true ∧ t.rFrame.toNat = n)

/-- Where every Playing voice is bound and its descriptor covers existing memory (the host's duty, 45_host.md
R294 (b)), a frame step completes (20_memory.md R75, 44_mixer.md R214). -/
def Obligations.CoveredFrameCompletes : Prop :=
  ∀ s : State,
    (∀ v : Fin 8, (s.voices.get v).state = .playing →
      (s.voices.get v).bound = true ∧ Covered s.mem (s.voices.get v)) →
    ∃ t : State, frameStep s = .next t

/-- SampleRead (20_memory.md R75), and the swap of samples under Suspended (R81): the address is base + f · channels
modulo 2^32; no memory there is a fault; a word that raced for the voice reads as a free value, any other as it is
stored. A write of a word is seen by every later read of it, leaves the other words as they are, and is no race for a
voice that is Suspended. For every other voice it is a race, whatever the value written (R81, log 6): of the voice it
writes `raced` only, which the word joins. -/
def Obligations.SampleReadsAndSwaps : Prop :=
  (∀ (mem : Memory) (draw voice site : Nat) (x : Voice) (f : Nat) (a : Word),
    a = x.bufBase + BitVec.ofNat 32 f * BitVec.ofNat 32 x.bufChannels.toNat →
    (readWord mem a = none → sampleRead mem draw voice site x f = .error (.noSampleMemory a)) ∧
    (∀ w, readWord mem a = some w → a ∈ x.raced →
      sampleRead mem draw voice site x f = .ok (Config.racedWord draw voice site)) ∧
    (∀ w, readWord mem a = some w → a ∉ x.raced → sampleRead mem draw voice site x f = .ok w)) ∧
  (∀ (s : State) (ts : List Turn) (a d : Word), s.turns = .sample a d :: ts → ∃ t : State, step s = .next t ∧
    readWord t.mem a = some d ∧ (∀ a', a' ≠ a → readWord t.mem a' = readWord s.mem a') ∧
    t = { s with turns := ts, mem := t.mem, voices := t.voices } ∧
    ∀ v : Fin 8,
      t.voices.get v = { s.voices.get v with raced := (t.voices.get v).raced } ∧
      ((s.voices.get v).state = .suspended → t.voices.get v = s.voices.get v) ∧
      ((s.voices.get v).state ≠ .suspended →
        ∀ a', a' ∈ (t.voices.get v).raced ↔ a' = a ∨ a' ∈ (s.voices.get v).raced))

/-! ## The whole machine -/

/-- Every step keeps every register but the binary32 ones in its legal range, the snapshots true to their counters, a
voice that is not Suspended bound, and sample memory in canonical form (10_state.md R37 (a), (c), (d), R40;
40_encoder.md R127). -/
def Obligations.StepKeepsRegistersLegal : Prop :=
  ∀ s t : State, s.RegistersOk → step s = .next t → t.RegistersOk

/-- Every step keeps every binary32 register in its legal range: the phase in [0, 1], the stored increment finite, the
pitch factor finite and at most 65536 in magnitude, the CV values in [0, 1] (10_state.md R23, R37 (b), R40; 44_mixer.md
R212, R216). And after a frame step from such a state the phase of every voice that is not Suspended is in [0, 1)
strictly, its pre-wrap phase and its position in the buffer having been finite (R23, R216). -/
def Obligations.StepKeepsPhaseInUnit : Prop :=
  (∀ s t : State, s.RegistersOk → s.FloatsOk → step s = .next t → t.FloatsOk) ∧
  (∀ (s t : State) (v : Fin 8), s.RegistersOk → s.FloatsOk → (s.voices.get v).state ≠ .suspended →
    frameStep s = .next t →
    let x := s.voices.get v
    let nan := freeNaN s.draws v.val
    let p2 := fadd (nan 1) x.phase (increment (nan 0) x)
    isFinite p2 = true ∧ isFinite (fmul (nan 2) p2 (flt x.bufFrames.toNat)) = true ∧
      fLe 0x00000000 (t.voices.get v).phase = true ∧ fLt (t.voices.get v).phase 0x3F800000 = true)

/-- Only a host write of V.STATE and reset make a voice Suspended, and only a host write makes it anything else
(43_voice.md R204); a Suspended voice is otherwise not written but by its own buffer writes (10_state.md R21). -/
def Obligations.OnlyHostAndResetMoveSuspended : Prop :=
  (∀ (i : Instr) (s t : State) (v : Fin 8), exec i s = .next t →
    ((s.voices.get v).state ≠ .suspended → (t.voices.get v).state = .suspended →
      i = .reset ∨ i = .wrVState v 2) ∧
    ((s.voices.get v).state = .suspended → (t.voices.get v).state ≠ .suspended →
      i = .wrVState v 0 ∨ i = .wrVState v 1) ∧
    ((s.voices.get v).state = .suspended → t.voices.get v ≠ s.voices.get v →
      i = .reset ∨ ∃ d, i ∈ [Instr.wrVState v d, .wrVBufBase v d, .wrVBufFrames v d, .wrVBufChannels v d])) ∧
  (∀ (s t : State) (v : Fin 8), renderStep s = .next t →
    ((t.voices.get v).state = .suspended ↔ (s.voices.get v).state = .suspended) ∧
    ((s.voices.get v).state = .suspended → t.voices.get v = s.voices.get v))

/-- Who writes what (60_exceptions.md R308, 00_scope.md R7). An event writes sample memory never, emits no OUT, and
writes each part of the state only if it is one of the part's writers in R308's table: the events of the table's agents,
and for RENDER a CB event, whose prologue writes a voice's speed, pitchFactor, level or pan only where it is routed. The
parts that the table does not list: RENDER's position belongs to CB and RESET, RENDER's queue to CB, the diagnostic
stream to MIDI data bytes, and the responses to host reads, one word each (R97); `raced` is the model's own (log 6). Then
RENDER's own turn, a frame or a held prologue: it writes the trigger, its position, its queue, the audio stream and the
seven voice fields it is listed for, and nothing else. -/
def Obligations.EachPartHasItsWriters : Prop :=
  (∀ (i : Instr) (s t : State), exec i s = .next t →
    (∀ a : Nat, readByte t.mem a = readByte s.mem a) ∧ t.audio = s.audio ∧ t.inbox = s.inbox ∧ t.turns = s.turns ∧
    t.cfg = s.cfg ∧ t.draws = s.draws ∧
    (t.trig ≠ s.trig → i = .reset ∨ i = .cbFail ∨ ∃ l, i = .cb l) ∧
    (t.rBusy ≠ s.rBusy ∨ t.rFrame ≠ s.rFrame → i = .reset ∨ i = .cbFail ∨ ∃ l, i = .cb l) ∧
    (t.held ≠ s.held → i = .cbFail ∨ ∃ l, i = .cb l) ∧
    (t.cv ≠ s.cv → i = .reset ∨ ∃ k d, i = .wrCv k d) ∧
    (t.enc ≠ s.enc → i ∈ [Instr.reset, .tickFail, .rdEncValue, .rdEncButton] ∨ (∃ a b btn, i = .tick a b btn) ∨
      ∃ d, i = .wrEncCtrl d) ∧
    (t.midi ≠ s.midi → i = .reset ∨ ∃ b : Byte, i = decodeMidi b) ∧
    (t.diag ≠ s.diag → ∃ b, i = .midiData b) ∧
    (t.responses ≠ s.responses → (∃ a, encode i = encodeRead a) ∧ ∃ w, t.responses = s.responses ++ [w]) ∧
    (t.err ≠ s.err → i = .reset ∨ ∃ d, i = .wrErr d ∨ i = .wrEncCtrl d ∨ ∃ v,
      i ∈ [Instr.wrVState v d, .wrVMode v d, .wrVSpeed v d, .wrVPitchf v d, .wrVTranspose v d, .wrVLevel v d,
        .wrVPan v d, .wrVMidich v d, .wrVMidinote v d, .wrVNativenote v d, .wrVMidimode v d, .wrVCvrLevel v d,
        .wrVCvrPan v d, .wrVCvrSpeed v d, .wrVCvrPitch v d, .wrVBufBase v d, .wrVBufFrames v d,
        .wrVBufChannels v d]) ∧
    ∀ v : Fin 8,
      let x := s.voices.get v
      let y := t.voices.get v
      let callback := i = .cbFail ∨ ∃ l, i = .cb l
      (y.state ≠ x.state → i = .reset ∨ callback ∨ (∃ b, i = .midiData b) ∨ ∃ d, i = .wrVState v d) ∧
      (y.phase ≠ x.phase → i = .reset ∨ callback ∨ ∃ b, i = .midiData b) ∧
      (y.phaseIncrement ≠ x.phaseIncrement → i = .reset) ∧
      (y.speed ≠ x.speed → i = .reset ∨ callback ∧ x.cvrSpeed ≠ 0 ∨ ∃ d, i = .wrVSpeed v d) ∧
      (y.pitchFactor ≠ x.pitchFactor → i = .reset ∨ callback ∧ x.cvrPitch ≠ 0 ∨ ∃ d, i = .wrVPitchf v d) ∧
      (y.level ≠ x.level → i = .reset ∨ callback ∧ x.cvrLevel ≠ 0 ∨ ∃ d, i = .wrVLevel v d) ∧
      (y.pan ≠ x.pan → i = .reset ∨ callback ∧ x.cvrPan ≠ 0 ∨ ∃ d, i = .wrVPan v d) ∧
      (y.midiNote ≠ x.midiNote → i = .reset ∨ (∃ d, i = .wrVMidinote v d) ∨ ∃ b, i = .midiData b) ∧
      (y.mode ≠ x.mode → i = .reset ∨ ∃ d, i = .wrVMode v d) ∧
      (y.transpose ≠ x.transpose → i = .reset ∨ ∃ d, i = .wrVTranspose v d) ∧
      (y.midiChannel ≠ x.midiChannel → i = .reset ∨ ∃ d, i = .wrVMidich v d) ∧
      (y.nativeNote ≠ x.nativeNote → i = .reset ∨ ∃ d, i = .wrVNativenote v d) ∧
      (y.midiMode ≠ x.midiMode → i = .reset ∨ ∃ d, i = .wrVMidimode v d) ∧
      (y.cvrLevel ≠ x.cvrLevel → i = .reset ∨ ∃ d, i = .wrVCvrLevel v d) ∧
      (y.cvrPan ≠ x.cvrPan → i = .reset ∨ ∃ d, i = .wrVCvrPan v d) ∧
      (y.cvrSpeed ≠ x.cvrSpeed → i = .reset ∨ ∃ d, i = .wrVCvrSpeed v d) ∧
      (y.cvrPitch ≠ x.cvrPitch → i = .reset ∨ ∃ d, i = .wrVCvrPitch v d) ∧
      (y.bufBase ≠ x.bufBase → i = .reset ∨ ∃ d, i = .wrVBufBase v d) ∧
      (y.bufFrames ≠ x.bufFrames → i = .reset ∨ ∃ d, i = .wrVBufFrames v d) ∧
      (y.bufChannels ≠ x.bufChannels → i = .reset ∨ ∃ d, i = .wrVBufChannels v d) ∧
      (y.raced ≠ x.raced → i = .reset ∨ i = .wrVState v 2)) ∧
  (∀ s t : State, renderStep s = .next t →
    t = { s with voices := t.voices, trig := t.trig, rBusy := t.rBusy, rFrame := t.rFrame, held := t.held,
                 audio := t.audio, draws := t.draws } ∧
    ∀ v : Fin 8,
      let x := s.voices.get v
      let y := t.voices.get v
      y = { x with phase := y.phase, phaseIncrement := y.phaseIncrement, state := y.state, speed := y.speed,
                   pitchFactor := y.pitchFactor, level := y.level, pan := y.pan } ∧
      (x.cvrSpeed = 0 → y.speed = x.speed) ∧ (x.cvrPitch = 0 → y.pitchFactor = x.pitchFactor) ∧
      (x.cvrLevel = 0 → y.level = x.level) ∧ (x.cvrPan = 0 → y.pan = x.pan))

/-- Errors (60_exceptions.md R300, R302): every event completes; one event sets at most one ERR bit; only WR ERR and
reset clear one; and a host access that sets one changes nothing else, ENC_CTRL writes apart. -/
def Obligations.EventsCompleteAndSetAtMostOneErrBit : Prop :=
  ∀ (i : Instr) (s : State), ∃ t : State, exec i s = .next t ∧
    (t.err = s.err ∨ t.err = s.err ||| 0b001 ∨ t.err = s.err ||| 0b010 ∨ t.err = s.err ||| 0b100 ∨
      i = .reset ∨ ∃ d, i = .wrErr d) ∧
    (t.err ≠ s.err → (t = { s with err := t.err } ∨ i = .reset ∨ ∃ d, i = .wrEncCtrl d))

/-- The only fault is RENDER's, at a word of sample memory that does not exist, while a callback is in progress; no step
is refused (20_memory.md R75 (a), 60_exceptions.md R304). -/
def Obligations.OnlyMissingMemoryStopsAStep : Prop :=
  ∀ s : State,
    (∀ f, step s = .fault f → s.rBusy = true ∧ ∃ a, f = .noSampleMemory a ∧ readWord s.mem a = none) ∧
    (∀ r, step s ≠ .refused r)
end

