-- ==== Sys2Proof/Laws/Binary32.lean ====
section
/-! SUPPORT. The binary32 operations and EXP2F: comparisons as an order of places, and what a block of EXP2F's free
values can be. -/

namespace Sys2Proof.Machine

/-- A comparison of two values that are no NaN is the comparison of their places (00_scope.md R6). -/
theorem fLe_iff_place (a b : F32) : fLe a b = true ↔ isNaN a = false ∧ isNaN b = false ∧ place a ≤ place b := by
  simp [fLe, and_assoc]

/-- The strict comparison, likewise. -/
theorem fLt_iff_place (a b : F32) : fLt a b = true ↔ isNaN a = false ∧ isNaN b = false ∧ place a < place b := by
  simp [fLt, and_assoc]

/-- The drawn NaN is a NaN (44_mixer.md R219). -/
theorem isNaN_freeNaN (draw voice site : Nat) : isNaN (freeNaN draw voice site) = true := by
  unfold freeNaN
  dsimp only
  split
  · assumption
  · rfl

/-- The free value between two bounds lies between them. -/
theorem exp2fBetween_bounds (level : Nat) {lo hi : Int} (base : Int) (h : lo ≤ hi) :
    lo ≤ exp2fBetween level lo hi base ∧ exp2fBetween level lo hi base ≤ hi := by
  have h0 := Int.emod_nonneg (Config.exp2fSplit level base : Int) (show hi - lo + 1 ≠ 0 by omega)
  have h1 := Int.emod_lt_of_pos (Config.exp2fSplit level base : Int) (show 0 < hi - lo + 1 by omega)
  unfold exp2fBetween
  omega

/-- Every value of a block lies between its bounds. -/
theorem exp2fBlock_bounds (level : Nat) (lo hi base : Int) (n : Nat) (h : lo ≤ hi) :
    lo ≤ exp2fBlock level lo hi base n ∧ exp2fBlock level lo hi base n ≤ hi := by
  induction level generalizing lo hi base n with
  | zero => exact exp2fBetween_bounds 0 base h
  | succ k ih =>
    have hb := exp2fBetween_bounds (k + 1) base h
    unfold exp2fBlock
    split
    · have := ih lo _ base n hb.1; omega
    · have := ih _ hi (base + 2 ^ k) (n - 2 ^ k) hb.2; omega

/-- The values of a block never fall (92_eei_decisions.md D5 (c)). -/
theorem exp2fBlock_mono (level : Nat) (lo hi base : Int) (n m : Nat) (h : lo ≤ hi) (hnm : n ≤ m) :
    exp2fBlock level lo hi base n ≤ exp2fBlock level lo hi base m := by
  induction level generalizing lo hi base n m with
  | zero => exact le_refl _
  | succ k ih =>
    have hb := exp2fBetween_bounds (k + 1) base h
    unfold exp2fBlock
    split
    · split
      · exact ih lo _ base n m hb.1 hnm
      · exact le_trans (exp2fBlock_bounds k lo _ base n hb.1).2 (exp2fBlock_bounds k _ hi (base + 2 ^ k) (m - 2 ^ k) hb.2).1
    · rw [if_neg (by omega)]
      exact ih _ hi (base + 2 ^ k) (n - 2 ^ k) (m - 2 ^ k) hb.2 (by omega)

end Sys2Proof.Machine
end

