-- ==== Sys2Proof/Laws/Memory.lean ====
section
/-! SUPPORT. Sample memory: a read after a write, and the canonical form that every write keeps. -/

namespace Sys2Proof.Machine

/-- A byte read after a byte write. -/
theorem readByte_writeByte (m : Memory) (a a' : Nat) (b : Byte) :
    readByte (writeByte m a b) a' = if a' = a then some b else readByte m a' := by
  induction m with
  | nil => simp [writeByte, readByte, eq_comm]
  | cons c rest ih =>
    unfold writeByte
    split
    · simp [readByte, eq_comm]
    · split
      · next h => subst h; simp only [readByte, eq_comm]; split <;> rfl
      · next h => simp only [readByte, ih]; split <;> split <;> simp_all

@[simp] theorem readByte_writeByte_self (m : Memory) (a : Nat) (b : Byte) :
    readByte (writeByte m a b) a = some b := by simp [readByte_writeByte]

theorem readByte_writeByte_of_ne (m : Memory) {a a' : Nat} (b : Byte) (h : a' ≠ a) :
    readByte (writeByte m a b) a' = readByte m a' := by simp [readByte_writeByte, h]

/-- A word write changes the four bytes of the word and no other. -/
theorem readByte_writeWord_of_outside (m : Memory) (a d : Word) {b : Nat}
    (h : b < byteAddr a ∨ byteAddr a + 4 ≤ b) : readByte (writeWord m a d) b = readByte m b := by
  simp only [writeWord]
  repeat rw [readByte_writeByte_of_ne _ _ (by omega)]

/-- The word just written is the word read. -/
@[simp] theorem readWord_writeWord_self (m : Memory) (a d : Word) : readWord (writeWord m a d) a = some d := by
  have h : d.extractLsb' 24 8 ++ d.extractLsb' 16 8 ++ d.extractLsb' 8 8 ++ d.extractLsb' 0 8 = d := by
    ext i hi
    simp only [BitVec.getElem_append, BitVec.getElem_extractLsb']
    split <;> rename_i h1 <;> [skip; split <;> rename_i h2 <;> [skip; split <;> rename_i h3]] <;>
      rw [BitVec.getLsbD_eq_getElem (by omega)] <;> congr 1 <;> omega
  simp [readWord, writeWord, readByte_writeByte, h]

/-- Every other word reads as before. -/
theorem readWord_writeWord_of_ne (m : Memory) {a a' : Word} (d : Word) (h : a' ≠ a) :
    readWord (writeWord m a d) a' = readWord m a' := by
  have hn : a'.toNat ≠ a.toNat := fun e => h (BitVec.eq_of_toNat_eq e)
  simp only [readWord]
  rw [readByte_writeWord_of_outside, readByte_writeWord_of_outside, readByte_writeWord_of_outside,
    readByte_writeWord_of_outside] <;> simp only [byteAddr] <;> omega

/-! ## The canonical form -/

theorem memoryRises_cons (c : Host.Cell) (m : List Host.Cell) :
    memoryRises (c :: m) = true ↔ (∀ c' ∈ m.head?, c.1 < c'.1) ∧ memoryRises m = true := by
  cases m <;> simp [memoryRises]

theorem head?_writeByte (m : Memory) (a : Nat) (b : Byte) :
    ∀ c ∈ (writeByte m a b).head?, c.1 = a ∨ ∃ c' ∈ m.head?, c.1 = c'.1 := by
  cases m with
  | nil => simp [writeByte]
  | cons c rest => unfold writeByte; split <;> [simp; (split <;> simp_all)]

theorem memoryRises_writeByte (m : Memory) (a : Nat) (b : Byte) (h : memoryRises m = true) :
    memoryRises (writeByte m a b) = true := by
  induction m with
  | nil => rfl
  | cons c rest ih =>
    rw [memoryRises_cons] at h
    unfold writeByte
    split
    · next hlt => rw [memoryRises_cons, memoryRises_cons]; exact ⟨by simpa using hlt, h⟩
    · split
      · next he => rw [memoryRises_cons]; exact ⟨fun c' hc' => he ▸ h.1 c' hc', h.2⟩
      · next hge hne =>
        rw [memoryRises_cons]
        refine ⟨fun c' hc' => ?_, ih h.2⟩
        rcases head?_writeByte rest a b c' hc' with e | ⟨c'', hc'', e⟩
        · omega
        · have := h.1 c'' hc''; omega

theorem mem_writeByte (m : Memory) (a : Nat) (b : Byte) : ∀ c ∈ writeByte m a b, c = (a, b) ∨ c ∈ m := by
  induction m with
  | nil => simp [writeByte]
  | cons c rest ih =>
    unfold writeByte
    split
    · simp
    · split
      · simp; tauto
      · intro x hx
        rcases List.mem_cons.mp hx with e | hx
        · simp [e]
        · rcases ih x hx with e | e <;> simp [e]

/-- A byte write inside the address space keeps the canonical form. -/
theorem Memory.wf_writeByte (m : Memory) (a : Nat) (b : Byte) (h : Memory.wf m = true) (ha : a < 4 * 2 ^ 32) :
    Memory.wf (writeByte m a b) = true := by
  simp only [Memory.wf, Bool.and_eq_true, List.all_eq_true, decide_eq_true_eq] at h ⊢
  refine ⟨memoryRises_writeByte m a b h.1, fun c hc => ?_⟩
  rcases mem_writeByte m a b c hc with e | e
  · rw [e]; exact ha
  · exact h.2 c e

/-- A word write keeps the canonical form: every word of the 2^32 lies inside the address space. -/
theorem Memory.wf_writeWord (m : Memory) (a d : Word) (h : Memory.wf m = true) : Memory.wf (writeWord m a d) = true := by
  have := a.isLt
  refine Memory.wf_writeByte _ _ _ (Memory.wf_writeByte _ _ _ (Memory.wf_writeByte _ _ _
    (Memory.wf_writeByte _ _ _ h ?_) ?_) ?_) ?_ <;> simp only [byteAddr] <;> omega

end Sys2Proof.Machine
end

