-- ==== Sys2Proof/Laws/Oct.lean ====
section
/-! SUPPORT. The small lemmas of `Oct`. -/

namespace Sys2Proof

/-- A statement about all eight indices follows from the eight. -/
theorem forall_fin8 {P : Fin 8 → Prop} (h0 : P 0) (h1 : P 1) (h2 : P 2) (h3 : P 3) (h4 : P 4) (h5 : P 5) (h6 : P 6)
    (h7 : P 7) (i : Fin 8) : P i :=
  match i with
  | 0 => h0
  | 1 => h1
  | 2 => h2
  | 3 => h3
  | 4 => h4
  | 5 => h5
  | 6 => h6
  | 7 => h7

@[simp] theorem Oct.get_build {α : Type} (f : Fin 8 → α) (i : Fin 8) : (Oct.build f).get i = f i :=
  forall_fin8 (P := fun i => (Oct.build f).get i = f i) rfl rfl rfl rfl rfl rfl rfl rfl i

@[simp] theorem Oct.get_set_self {α : Type} (o : Oct α) (i : Fin 8) (a : α) : (o.set i a).get i = a :=
  forall_fin8 (P := fun i => (o.set i a).get i = a) rfl rfl rfl rfl rfl rfl rfl rfl i

theorem Oct.get_set_of_ne {α : Type} (o : Oct α) {i j : Fin 8} (a : α) (h : j ≠ i) : (o.set i a).get j = o.get j := by
  fin_cases i <;> fin_cases j <;> first | rfl | exact absurd rfl h

/-- Reading after a write of one element. -/
theorem Oct.get_set {α : Type} (o : Oct α) (i j : Fin 8) (a : α) :
    (o.set i a).get j = if j = i then a else o.get j := by
  split
  · next h => rw [h, Oct.get_set_self]
  · next h => exact Oct.get_set_of_ne o a h

/-- Two octets with the same elements are the same. -/
theorem Oct.ext_get {α : Type} {o o' : Oct α} (h : ∀ i, o.get i = o'.get i) : o = o' := by
  obtain ⟨a0, a1, a2, a3, a4, a5, a6, a7⟩ := o
  obtain ⟨b0, b1, b2, b3, b4, b5, b6, b7⟩ := o'
  have e0 := h 0
  have e1 := h 1
  have e2 := h 2
  have e3 := h 3
  have e4 := h 4
  have e5 := h 5
  have e6 := h 6
  have e7 := h 7
  simp only [Oct.get] at e0 e1 e2 e3 e4 e5 e6 e7
  subst e0 e1 e2 e3 e4 e5 e6 e7
  rfl

theorem Oct.set_get_self {α : Type} (o : Oct α) (i : Fin 8) : o.set i (o.get i) = o :=
  Oct.ext_get fun j => by
    rw [Oct.get_set]
    split
    · next h => rw [h]
    · rfl

/-- Bit `i` of the byte is element `i`. -/
theorem Oct.getLsbD_bits (o : Oct Bool) (i : Fin 8) : o.bits.getLsbD i.val = o.get i := by
  obtain ⟨b0, b1, b2, b3, b4, b5, b6, b7⟩ := o
  revert i
  revert b0 b1 b2 b3 b4 b5 b6 b7
  decide

end Sys2Proof
end

