-- ==== Sys2Proof/Laws/State.lean ====
section
/-! SUPPORT. One lemma per field per update of the state, each true by rfl, so that no proof unfolds a record update. -/

namespace Sys2Proof.Machine

@[simp] theorem State.respond_cfg (s : State) (w : Word) : (s.respond w).cfg = s.cfg := rfl
@[simp] theorem State.respond_voices (s : State) (w : Word) : (s.respond w).voices = s.voices := rfl
@[simp] theorem State.respond_enc (s : State) (w : Word) : (s.respond w).enc = s.enc := rfl
@[simp] theorem State.respond_trig (s : State) (w : Word) : (s.respond w).trig = s.trig := rfl
@[simp] theorem State.respond_cv (s : State) (w : Word) : (s.respond w).cv = s.cv := rfl
@[simp] theorem State.respond_midi (s : State) (w : Word) : (s.respond w).midi = s.midi := rfl
@[simp] theorem State.respond_rBusy (s : State) (w : Word) : (s.respond w).rBusy = s.rBusy := rfl
@[simp] theorem State.respond_rFrame (s : State) (w : Word) : (s.respond w).rFrame = s.rFrame := rfl
@[simp] theorem State.respond_err (s : State) (w : Word) : (s.respond w).err = s.err := rfl
@[simp] theorem State.respond_mem (s : State) (w : Word) : (s.respond w).mem = s.mem := rfl
@[simp] theorem State.respond_held (s : State) (w : Word) : (s.respond w).held = s.held := rfl
@[simp] theorem State.respond_inbox (s : State) (w : Word) : (s.respond w).inbox = s.inbox := rfl
@[simp] theorem State.respond_turns (s : State) (w : Word) : (s.respond w).turns = s.turns := rfl
@[simp] theorem State.respond_audio (s : State) (w : Word) : (s.respond w).audio = s.audio := rfl
@[simp] theorem State.respond_diag (s : State) (w : Word) : (s.respond w).diag = s.diag := rfl
@[simp] theorem State.respond_responses (s : State) (w : Word) : (s.respond w).responses = s.responses ++ [w] := rfl
@[simp] theorem State.respond_draws (s : State) (w : Word) : (s.respond w).draws = s.draws := rfl

@[simp] theorem State.emitOut_cfg (s : State) (l r : F32) : (s.emitOut l r).cfg = s.cfg := rfl
@[simp] theorem State.emitOut_voices (s : State) (l r : F32) : (s.emitOut l r).voices = s.voices := rfl
@[simp] theorem State.emitOut_enc (s : State) (l r : F32) : (s.emitOut l r).enc = s.enc := rfl
@[simp] theorem State.emitOut_trig (s : State) (l r : F32) : (s.emitOut l r).trig = s.trig := rfl
@[simp] theorem State.emitOut_cv (s : State) (l r : F32) : (s.emitOut l r).cv = s.cv := rfl
@[simp] theorem State.emitOut_midi (s : State) (l r : F32) : (s.emitOut l r).midi = s.midi := rfl
@[simp] theorem State.emitOut_rBusy (s : State) (l r : F32) : (s.emitOut l r).rBusy = s.rBusy := rfl
@[simp] theorem State.emitOut_rFrame (s : State) (l r : F32) : (s.emitOut l r).rFrame = s.rFrame := rfl
@[simp] theorem State.emitOut_err (s : State) (l r : F32) : (s.emitOut l r).err = s.err := rfl
@[simp] theorem State.emitOut_mem (s : State) (l r : F32) : (s.emitOut l r).mem = s.mem := rfl
@[simp] theorem State.emitOut_held (s : State) (l r : F32) : (s.emitOut l r).held = s.held := rfl
@[simp] theorem State.emitOut_inbox (s : State) (l r : F32) : (s.emitOut l r).inbox = s.inbox := rfl
@[simp] theorem State.emitOut_turns (s : State) (l r : F32) : (s.emitOut l r).turns = s.turns := rfl
@[simp] theorem State.emitOut_audio (s : State) (l r : F32) : (s.emitOut l r).audio = s.audio ++ [⟨l, r⟩] := rfl
@[simp] theorem State.emitOut_diag (s : State) (l r : F32) : (s.emitOut l r).diag = s.diag := rfl
@[simp] theorem State.emitOut_responses (s : State) (l r : F32) : (s.emitOut l r).responses = s.responses := rfl
@[simp] theorem State.emitOut_draws (s : State) (l r : F32) : (s.emitOut l r).draws = s.draws := rfl

@[simp] theorem State.emitDiag_cfg (s : State) (x : DiagItem) : (s.emitDiag x).cfg = s.cfg := rfl
@[simp] theorem State.emitDiag_voices (s : State) (x : DiagItem) : (s.emitDiag x).voices = s.voices := rfl
@[simp] theorem State.emitDiag_enc (s : State) (x : DiagItem) : (s.emitDiag x).enc = s.enc := rfl
@[simp] theorem State.emitDiag_trig (s : State) (x : DiagItem) : (s.emitDiag x).trig = s.trig := rfl
@[simp] theorem State.emitDiag_cv (s : State) (x : DiagItem) : (s.emitDiag x).cv = s.cv := rfl
@[simp] theorem State.emitDiag_midi (s : State) (x : DiagItem) : (s.emitDiag x).midi = s.midi := rfl
@[simp] theorem State.emitDiag_rBusy (s : State) (x : DiagItem) : (s.emitDiag x).rBusy = s.rBusy := rfl
@[simp] theorem State.emitDiag_rFrame (s : State) (x : DiagItem) : (s.emitDiag x).rFrame = s.rFrame := rfl
@[simp] theorem State.emitDiag_err (s : State) (x : DiagItem) : (s.emitDiag x).err = s.err := rfl
@[simp] theorem State.emitDiag_mem (s : State) (x : DiagItem) : (s.emitDiag x).mem = s.mem := rfl
@[simp] theorem State.emitDiag_held (s : State) (x : DiagItem) : (s.emitDiag x).held = s.held := rfl
@[simp] theorem State.emitDiag_inbox (s : State) (x : DiagItem) : (s.emitDiag x).inbox = s.inbox := rfl
@[simp] theorem State.emitDiag_turns (s : State) (x : DiagItem) : (s.emitDiag x).turns = s.turns := rfl
@[simp] theorem State.emitDiag_audio (s : State) (x : DiagItem) : (s.emitDiag x).audio = s.audio := rfl
@[simp] theorem State.emitDiag_diag (s : State) (x : DiagItem) : (s.emitDiag x).diag = s.diag ++ [x] := rfl
@[simp] theorem State.emitDiag_responses (s : State) (x : DiagItem) : (s.emitDiag x).responses = s.responses := rfl
@[simp] theorem State.emitDiag_draws (s : State) (x : DiagItem) : (s.emitDiag x).draws = s.draws := rfl

@[simp] theorem State.setErr_cfg (s : State) (b : BitVec 3) : (s.setErr b).cfg = s.cfg := rfl
@[simp] theorem State.setErr_voices (s : State) (b : BitVec 3) : (s.setErr b).voices = s.voices := rfl
@[simp] theorem State.setErr_enc (s : State) (b : BitVec 3) : (s.setErr b).enc = s.enc := rfl
@[simp] theorem State.setErr_trig (s : State) (b : BitVec 3) : (s.setErr b).trig = s.trig := rfl
@[simp] theorem State.setErr_cv (s : State) (b : BitVec 3) : (s.setErr b).cv = s.cv := rfl
@[simp] theorem State.setErr_midi (s : State) (b : BitVec 3) : (s.setErr b).midi = s.midi := rfl
@[simp] theorem State.setErr_rBusy (s : State) (b : BitVec 3) : (s.setErr b).rBusy = s.rBusy := rfl
@[simp] theorem State.setErr_rFrame (s : State) (b : BitVec 3) : (s.setErr b).rFrame = s.rFrame := rfl
@[simp] theorem State.setErr_err (s : State) (b : BitVec 3) : (s.setErr b).err = s.err ||| b := rfl
@[simp] theorem State.setErr_mem (s : State) (b : BitVec 3) : (s.setErr b).mem = s.mem := rfl
@[simp] theorem State.setErr_held (s : State) (b : BitVec 3) : (s.setErr b).held = s.held := rfl
@[simp] theorem State.setErr_inbox (s : State) (b : BitVec 3) : (s.setErr b).inbox = s.inbox := rfl
@[simp] theorem State.setErr_turns (s : State) (b : BitVec 3) : (s.setErr b).turns = s.turns := rfl
@[simp] theorem State.setErr_audio (s : State) (b : BitVec 3) : (s.setErr b).audio = s.audio := rfl
@[simp] theorem State.setErr_diag (s : State) (b : BitVec 3) : (s.setErr b).diag = s.diag := rfl
@[simp] theorem State.setErr_responses (s : State) (b : BitVec 3) : (s.setErr b).responses = s.responses := rfl
@[simp] theorem State.setErr_draws (s : State) (b : BitVec 3) : (s.setErr b).draws = s.draws := rfl

@[simp] theorem State.clearErr_cfg (s : State) (d : Word) : (s.clearErr d).cfg = s.cfg := rfl
@[simp] theorem State.clearErr_voices (s : State) (d : Word) : (s.clearErr d).voices = s.voices := rfl
@[simp] theorem State.clearErr_enc (s : State) (d : Word) : (s.clearErr d).enc = s.enc := rfl
@[simp] theorem State.clearErr_trig (s : State) (d : Word) : (s.clearErr d).trig = s.trig := rfl
@[simp] theorem State.clearErr_cv (s : State) (d : Word) : (s.clearErr d).cv = s.cv := rfl
@[simp] theorem State.clearErr_midi (s : State) (d : Word) : (s.clearErr d).midi = s.midi := rfl
@[simp] theorem State.clearErr_rBusy (s : State) (d : Word) : (s.clearErr d).rBusy = s.rBusy := rfl
@[simp] theorem State.clearErr_rFrame (s : State) (d : Word) : (s.clearErr d).rFrame = s.rFrame := rfl
@[simp] theorem State.clearErr_err (s : State) (d : Word) : (s.clearErr d).err = s.err &&& ~~~(d.extractLsb' 0 3) := rfl
@[simp] theorem State.clearErr_mem (s : State) (d : Word) : (s.clearErr d).mem = s.mem := rfl
@[simp] theorem State.clearErr_held (s : State) (d : Word) : (s.clearErr d).held = s.held := rfl
@[simp] theorem State.clearErr_inbox (s : State) (d : Word) : (s.clearErr d).inbox = s.inbox := rfl
@[simp] theorem State.clearErr_turns (s : State) (d : Word) : (s.clearErr d).turns = s.turns := rfl
@[simp] theorem State.clearErr_audio (s : State) (d : Word) : (s.clearErr d).audio = s.audio := rfl
@[simp] theorem State.clearErr_diag (s : State) (d : Word) : (s.clearErr d).diag = s.diag := rfl
@[simp] theorem State.clearErr_responses (s : State) (d : Word) : (s.clearErr d).responses = s.responses := rfl
@[simp] theorem State.clearErr_draws (s : State) (d : Word) : (s.clearErr d).draws = s.draws := rfl

@[simp] theorem State.setVoice_cfg (s : State) (v : Fin 8) (x : Voice) : (s.setVoice v x).cfg = s.cfg := rfl
@[simp] theorem State.setVoice_voices (s : State) (v : Fin 8) (x : Voice) : (s.setVoice v x).voices = s.voices.set v x := rfl
@[simp] theorem State.setVoice_enc (s : State) (v : Fin 8) (x : Voice) : (s.setVoice v x).enc = s.enc := rfl
@[simp] theorem State.setVoice_trig (s : State) (v : Fin 8) (x : Voice) : (s.setVoice v x).trig = s.trig := rfl
@[simp] theorem State.setVoice_cv (s : State) (v : Fin 8) (x : Voice) : (s.setVoice v x).cv = s.cv := rfl
@[simp] theorem State.setVoice_midi (s : State) (v : Fin 8) (x : Voice) : (s.setVoice v x).midi = s.midi := rfl
@[simp] theorem State.setVoice_rBusy (s : State) (v : Fin 8) (x : Voice) : (s.setVoice v x).rBusy = s.rBusy := rfl
@[simp] theorem State.setVoice_rFrame (s : State) (v : Fin 8) (x : Voice) : (s.setVoice v x).rFrame = s.rFrame := rfl
@[simp] theorem State.setVoice_err (s : State) (v : Fin 8) (x : Voice) : (s.setVoice v x).err = s.err := rfl
@[simp] theorem State.setVoice_mem (s : State) (v : Fin 8) (x : Voice) : (s.setVoice v x).mem = s.mem := rfl
@[simp] theorem State.setVoice_held (s : State) (v : Fin 8) (x : Voice) : (s.setVoice v x).held = s.held := rfl
@[simp] theorem State.setVoice_inbox (s : State) (v : Fin 8) (x : Voice) : (s.setVoice v x).inbox = s.inbox := rfl
@[simp] theorem State.setVoice_turns (s : State) (v : Fin 8) (x : Voice) : (s.setVoice v x).turns = s.turns := rfl
@[simp] theorem State.setVoice_audio (s : State) (v : Fin 8) (x : Voice) : (s.setVoice v x).audio = s.audio := rfl
@[simp] theorem State.setVoice_diag (s : State) (v : Fin 8) (x : Voice) : (s.setVoice v x).diag = s.diag := rfl
@[simp] theorem State.setVoice_responses (s : State) (v : Fin 8) (x : Voice) : (s.setVoice v x).responses = s.responses := rfl
@[simp] theorem State.setVoice_draws (s : State) (v : Fin 8) (x : Voice) : (s.setVoice v x).draws = s.draws := rfl

@[simp] theorem State.mapVoices_cfg (s : State) (f : Fin 8 → Voice → Voice) : (s.mapVoices f).cfg = s.cfg := rfl
@[simp] theorem State.mapVoices_voices (s : State) (f : Fin 8 → Voice → Voice) : (s.mapVoices f).voices = Oct.build fun v => f v (s.voices.get v) := rfl
@[simp] theorem State.mapVoices_enc (s : State) (f : Fin 8 → Voice → Voice) : (s.mapVoices f).enc = s.enc := rfl
@[simp] theorem State.mapVoices_trig (s : State) (f : Fin 8 → Voice → Voice) : (s.mapVoices f).trig = s.trig := rfl
@[simp] theorem State.mapVoices_cv (s : State) (f : Fin 8 → Voice → Voice) : (s.mapVoices f).cv = s.cv := rfl
@[simp] theorem State.mapVoices_midi (s : State) (f : Fin 8 → Voice → Voice) : (s.mapVoices f).midi = s.midi := rfl
@[simp] theorem State.mapVoices_rBusy (s : State) (f : Fin 8 → Voice → Voice) : (s.mapVoices f).rBusy = s.rBusy := rfl
@[simp] theorem State.mapVoices_rFrame (s : State) (f : Fin 8 → Voice → Voice) : (s.mapVoices f).rFrame = s.rFrame := rfl
@[simp] theorem State.mapVoices_err (s : State) (f : Fin 8 → Voice → Voice) : (s.mapVoices f).err = s.err := rfl
@[simp] theorem State.mapVoices_mem (s : State) (f : Fin 8 → Voice → Voice) : (s.mapVoices f).mem = s.mem := rfl
@[simp] theorem State.mapVoices_held (s : State) (f : Fin 8 → Voice → Voice) : (s.mapVoices f).held = s.held := rfl
@[simp] theorem State.mapVoices_inbox (s : State) (f : Fin 8 → Voice → Voice) : (s.mapVoices f).inbox = s.inbox := rfl
@[simp] theorem State.mapVoices_turns (s : State) (f : Fin 8 → Voice → Voice) : (s.mapVoices f).turns = s.turns := rfl
@[simp] theorem State.mapVoices_audio (s : State) (f : Fin 8 → Voice → Voice) : (s.mapVoices f).audio = s.audio := rfl
@[simp] theorem State.mapVoices_diag (s : State) (f : Fin 8 → Voice → Voice) : (s.mapVoices f).diag = s.diag := rfl
@[simp] theorem State.mapVoices_responses (s : State) (f : Fin 8 → Voice → Voice) : (s.mapVoices f).responses = s.responses := rfl
@[simp] theorem State.mapVoices_draws (s : State) (f : Fin 8 → Voice → Voice) : (s.mapVoices f).draws = s.draws := rfl

@[simp] theorem State.setEnc_cfg (s : State) (c : Encoder) : (s.setEnc c).cfg = s.cfg := rfl
@[simp] theorem State.setEnc_voices (s : State) (c : Encoder) : (s.setEnc c).voices = s.voices := rfl
@[simp] theorem State.setEnc_enc (s : State) (c : Encoder) : (s.setEnc c).enc = c := rfl
@[simp] theorem State.setEnc_trig (s : State) (c : Encoder) : (s.setEnc c).trig = s.trig := rfl
@[simp] theorem State.setEnc_cv (s : State) (c : Encoder) : (s.setEnc c).cv = s.cv := rfl
@[simp] theorem State.setEnc_midi (s : State) (c : Encoder) : (s.setEnc c).midi = s.midi := rfl
@[simp] theorem State.setEnc_rBusy (s : State) (c : Encoder) : (s.setEnc c).rBusy = s.rBusy := rfl
@[simp] theorem State.setEnc_rFrame (s : State) (c : Encoder) : (s.setEnc c).rFrame = s.rFrame := rfl
@[simp] theorem State.setEnc_err (s : State) (c : Encoder) : (s.setEnc c).err = s.err := rfl
@[simp] theorem State.setEnc_mem (s : State) (c : Encoder) : (s.setEnc c).mem = s.mem := rfl
@[simp] theorem State.setEnc_held (s : State) (c : Encoder) : (s.setEnc c).held = s.held := rfl
@[simp] theorem State.setEnc_inbox (s : State) (c : Encoder) : (s.setEnc c).inbox = s.inbox := rfl
@[simp] theorem State.setEnc_turns (s : State) (c : Encoder) : (s.setEnc c).turns = s.turns := rfl
@[simp] theorem State.setEnc_audio (s : State) (c : Encoder) : (s.setEnc c).audio = s.audio := rfl
@[simp] theorem State.setEnc_diag (s : State) (c : Encoder) : (s.setEnc c).diag = s.diag := rfl
@[simp] theorem State.setEnc_responses (s : State) (c : Encoder) : (s.setEnc c).responses = s.responses := rfl
@[simp] theorem State.setEnc_draws (s : State) (c : Encoder) : (s.setEnc c).draws = s.draws := rfl

@[simp] theorem State.setMidi_cfg (s : State) (m : Midi) : (s.setMidi m).cfg = s.cfg := rfl
@[simp] theorem State.setMidi_voices (s : State) (m : Midi) : (s.setMidi m).voices = s.voices := rfl
@[simp] theorem State.setMidi_enc (s : State) (m : Midi) : (s.setMidi m).enc = s.enc := rfl
@[simp] theorem State.setMidi_trig (s : State) (m : Midi) : (s.setMidi m).trig = s.trig := rfl
@[simp] theorem State.setMidi_cv (s : State) (m : Midi) : (s.setMidi m).cv = s.cv := rfl
@[simp] theorem State.setMidi_midi (s : State) (m : Midi) : (s.setMidi m).midi = m := rfl
@[simp] theorem State.setMidi_rBusy (s : State) (m : Midi) : (s.setMidi m).rBusy = s.rBusy := rfl
@[simp] theorem State.setMidi_rFrame (s : State) (m : Midi) : (s.setMidi m).rFrame = s.rFrame := rfl
@[simp] theorem State.setMidi_err (s : State) (m : Midi) : (s.setMidi m).err = s.err := rfl
@[simp] theorem State.setMidi_mem (s : State) (m : Midi) : (s.setMidi m).mem = s.mem := rfl
@[simp] theorem State.setMidi_held (s : State) (m : Midi) : (s.setMidi m).held = s.held := rfl
@[simp] theorem State.setMidi_inbox (s : State) (m : Midi) : (s.setMidi m).inbox = s.inbox := rfl
@[simp] theorem State.setMidi_turns (s : State) (m : Midi) : (s.setMidi m).turns = s.turns := rfl
@[simp] theorem State.setMidi_audio (s : State) (m : Midi) : (s.setMidi m).audio = s.audio := rfl
@[simp] theorem State.setMidi_diag (s : State) (m : Midi) : (s.setMidi m).diag = s.diag := rfl
@[simp] theorem State.setMidi_responses (s : State) (m : Midi) : (s.setMidi m).responses = s.responses := rfl
@[simp] theorem State.setMidi_draws (s : State) (m : Midi) : (s.setMidi m).draws = s.draws := rfl

@[simp] theorem State.setCv_cfg (s : State) (k : Fin 8) (x : F32) : (s.setCv k x).cfg = s.cfg := rfl
@[simp] theorem State.setCv_voices (s : State) (k : Fin 8) (x : F32) : (s.setCv k x).voices = s.voices := rfl
@[simp] theorem State.setCv_enc (s : State) (k : Fin 8) (x : F32) : (s.setCv k x).enc = s.enc := rfl
@[simp] theorem State.setCv_trig (s : State) (k : Fin 8) (x : F32) : (s.setCv k x).trig = s.trig := rfl
@[simp] theorem State.setCv_cv (s : State) (k : Fin 8) (x : F32) : (s.setCv k x).cv = s.cv.set k x := rfl
@[simp] theorem State.setCv_midi (s : State) (k : Fin 8) (x : F32) : (s.setCv k x).midi = s.midi := rfl
@[simp] theorem State.setCv_rBusy (s : State) (k : Fin 8) (x : F32) : (s.setCv k x).rBusy = s.rBusy := rfl
@[simp] theorem State.setCv_rFrame (s : State) (k : Fin 8) (x : F32) : (s.setCv k x).rFrame = s.rFrame := rfl
@[simp] theorem State.setCv_err (s : State) (k : Fin 8) (x : F32) : (s.setCv k x).err = s.err := rfl
@[simp] theorem State.setCv_mem (s : State) (k : Fin 8) (x : F32) : (s.setCv k x).mem = s.mem := rfl
@[simp] theorem State.setCv_held (s : State) (k : Fin 8) (x : F32) : (s.setCv k x).held = s.held := rfl
@[simp] theorem State.setCv_inbox (s : State) (k : Fin 8) (x : F32) : (s.setCv k x).inbox = s.inbox := rfl
@[simp] theorem State.setCv_turns (s : State) (k : Fin 8) (x : F32) : (s.setCv k x).turns = s.turns := rfl
@[simp] theorem State.setCv_audio (s : State) (k : Fin 8) (x : F32) : (s.setCv k x).audio = s.audio := rfl
@[simp] theorem State.setCv_diag (s : State) (k : Fin 8) (x : F32) : (s.setCv k x).diag = s.diag := rfl
@[simp] theorem State.setCv_responses (s : State) (k : Fin 8) (x : F32) : (s.setCv k x).responses = s.responses := rfl
@[simp] theorem State.setCv_draws (s : State) (k : Fin 8) (x : F32) : (s.setCv k x).draws = s.draws := rfl

@[simp] theorem State.resetRegisters_cfg (s : State) : s.resetRegisters.cfg = s.cfg := rfl
@[simp] theorem State.resetRegisters_voices (s : State) : s.resetRegisters.voices = Oct.build Voice.reset := rfl
@[simp] theorem State.resetRegisters_enc (s : State) : s.resetRegisters.enc = Encoder.reset := rfl
@[simp] theorem State.resetRegisters_trig (s : State) : s.resetRegisters.trig = Trigger.reset := rfl
@[simp] theorem State.resetRegisters_cv (s : State) : s.resetRegisters.cv = cvReset := rfl
@[simp] theorem State.resetRegisters_midi (s : State) : s.resetRegisters.midi = Midi.reset := rfl
@[simp] theorem State.resetRegisters_rBusy (s : State) : s.resetRegisters.rBusy = false := rfl
@[simp] theorem State.resetRegisters_rFrame (s : State) : s.resetRegisters.rFrame = 0 := rfl
@[simp] theorem State.resetRegisters_err (s : State) : s.resetRegisters.err = 0 := rfl
@[simp] theorem State.resetRegisters_mem (s : State) : s.resetRegisters.mem = s.mem := rfl
@[simp] theorem State.resetRegisters_held (s : State) : s.resetRegisters.held = s.held := rfl
@[simp] theorem State.resetRegisters_inbox (s : State) : s.resetRegisters.inbox = s.inbox := rfl
@[simp] theorem State.resetRegisters_turns (s : State) : s.resetRegisters.turns = s.turns := rfl
@[simp] theorem State.resetRegisters_audio (s : State) : s.resetRegisters.audio = s.audio := rfl
@[simp] theorem State.resetRegisters_diag (s : State) : s.resetRegisters.diag = s.diag := rfl
@[simp] theorem State.resetRegisters_responses (s : State) : s.resetRegisters.responses = s.responses := rfl
@[simp] theorem State.resetRegisters_draws (s : State) : s.resetRegisters.draws = s.draws := rfl

@[simp] theorem State.ignoreWrite_eq (s : State) (d : Word) : s.ignoreWrite d = s := rfl

/-- The voice that `mapVoices` leaves at index `v`. -/
@[simp] theorem State.mapVoices_get (s : State) (f : Fin 8 → Voice → Voice) (v : Fin 8) :
    (s.mapVoices f).voices.get v = f v (s.voices.get v) := by simp

@[simp] theorem Voice.withState_state (x : Voice) (st : PlayState) : (x.withState st).state = st := rfl

end Sys2Proof.Machine
end

