-- ==== Sys2Proof/Laws/Ops.lean ====
section
/-! SUPPORT. One lemma per shared operation that says once everything it can do; later proofs cite these. -/

namespace Sys2Proof.Machine

/-! ## Voice register writes -/

/-- Everything a parameter write can do (45_host.md R268). -/
theorem writeParam_cases (v : Fin 8) (f : Voice → Option Voice) (s : State) :
    ((s.voices.get v).state = .suspended ∧ writeParam v f s = s.setErr errFrozenWrite) ∨
    ((s.voices.get v).state ≠ .suspended ∧ f (s.voices.get v) = none ∧ writeParam v f s = s.setErr errIllegalValue) ∨
    (∃ x, (s.voices.get v).state ≠ .suspended ∧ f (s.voices.get v) = some x ∧ writeParam v f s = s.setVoice v x) := by
  by_cases h : (s.voices.get v).state = .suspended
  · exact .inl ⟨h, by simp [writeParam, h]⟩
  · cases hf : f (s.voices.get v) with
    | none => exact .inr (.inl ⟨h, rfl, by simp [writeParam, h, hf]⟩)
    | some x => exact .inr (.inr ⟨x, h, rfl, by simp [writeParam, h, hf]⟩)

/-- Everything a buffer write can do (45_host.md R268). -/
theorem writeBuffer_cases (v : Fin 8) (f : Voice → Voice) (s : State) :
    ((s.voices.get v).state = .suspended ∧ writeBuffer v f s = s.setVoice v (f (s.voices.get v))) ∨
    ((s.voices.get v).state ≠ .suspended ∧ writeBuffer v f s = s.setErr errFrozenWrite) := by
  by_cases h : (s.voices.get v).state = .suspended
  · exact .inl ⟨h, by simp [writeBuffer, h]⟩
  · exact .inr ⟨h, by simp [writeBuffer, h]⟩

/-- Everything a write of V.STATE can do (45_host.md R250). -/
theorem writeState_cases (v : Fin 8) (d : Word) (s : State) :
    (playStateOf d = none ∧ writeState v d s = s.setErr errIllegalValue) ∨
    (∃ st, playStateOf d = some st ∧ st ≠ .suspended ∧ (s.voices.get v).bound = false ∧
      writeState v d s = s.setErr errUnsuspNobuf) ∨
    (∃ st, playStateOf d = some st ∧ (st ≠ .suspended → (s.voices.get v).bound = true) ∧
      writeState v d s = s.setVoice v ((s.voices.get v).withState st)) := by
  cases h : playStateOf d with
  | none => exact .inl ⟨rfl, by simp [writeState, h]⟩
  | some st =>
    by_cases hb : st ≠ .suspended ∧ (s.voices.get v).bound = false
    · exact .inr (.inl ⟨st, rfl, hb.1, hb.2, by simp [writeState, h, hb]⟩)
    · refine .inr (.inr ⟨st, rfl, fun hs => ?_, by simp only [writeState, h, if_neg hb]⟩)
      cases hbd : (s.voices.get v).bound with
      | true => rfl
      | false => exact absurd ⟨hs, hbd⟩ hb

/-! ## Sample memory -/

/-- A write of sample memory by its owner writes the word and the voices, and nothing else (20_memory.md R75, R81). -/
theorem storeSample_frame (s : State) (a d : Word) :
    s.storeSample a d = { s with voices := (s.storeSample a d).voices, mem := writeWord s.mem a d } := rfl

@[simp] theorem storeSample_mem (s : State) (a d : Word) : (s.storeSample a d).mem = writeWord s.mem a d := rfl

/-- Each voice notes the write (20_memory.md R81). -/
@[simp] theorem storeSample_voice (s : State) (a d : Word) (v : Fin 8) :
    (s.storeSample a d).voices.get v = (s.voices.get v).noteWrite a := by
  simp [State.storeSample, State.mapVoices]

/-- Sample memory keeps its canonical form. -/
theorem storeSample_wf (s : State) (a d : Word) (h : Memory.wf s.mem = true) :
    Memory.wf (s.storeSample a d).mem = true :=
  Memory.wf_writeWord _ _ _ h

/-- Sample memory is in canonical form at power-on. -/
theorem powerOn_wf (p : Params) : Memory.wf (State.powerOn p).mem = true := rfl

/-- Sample memory is in canonical form after reset. -/
theorem reset_wf : Memory.wf State.reset.mem = true := rfl

/-- A Suspended voice notes no write (20_memory.md R75 (c)). -/
theorem noteWrite_suspended (x : Voice) (a : Word) (h : x.state = .suspended) : x.noteWrite a = x := by
  simp [Voice.noteWrite, h]

/-- A write touches nothing of a voice but its raced words. -/
theorem noteWrite_frame (x : Voice) (a : Word) : x.noteWrite a = { x with raced := (x.noteWrite a).raced } := by
  unfold Voice.noteWrite
  split <;> rfl

/-- Every write of a word races with the reads of a voice that is not Suspended, and makes no other word race
(20_memory.md R75 (b), R81). -/
theorem mem_raced_noteWrite (x : Voice) (a b : Word) (h : x.state ≠ .suspended) :
    b ∈ (x.noteWrite a).raced ↔ b = a ∨ b ∈ x.raced := by
  by_cases ha : a ∈ x.raced
  · simp only [Voice.noteWrite, h, ha, decide_false, Bool.false_or, List.contains_eq_mem, decide_true, if_true]
    exact ⟨.inr, fun hb => hb.elim (fun e => e ▸ ha) id⟩
  · simp [Voice.noteWrite, h, ha]

/-! ## Callbacks -/

/-- Everything the arrival of a CB event can do (41_trigger.md R150). -/
theorem acceptCallback_cases (t : Byte) (e : Bool) (s : State) :
    ((s.rBusy = true ∨ s.held ≠ []) ∧ acceptCallback t e s = { s with held := s.held ++ [⟨t, e⟩] }) ∨
    (s.rBusy = false ∧ s.held = [] ∧ acceptCallback t e s = prologue t e s) := by
  cases hb : s.rBusy <;> cases hh : s.held <;> simp [acceptCallback, hb, hh]

/-- The prologue writes the trigger state, the voices and RENDER's position, and nothing else. -/
theorem prologue_frame (t : Byte) (e : Bool) (s : State) :
    prologue t e s =
      { s with
        trig := debounce s.cfg (callbackLevels s t e) s.trig
        voices := (prologue t e s).voices
        rBusy := true
        rFrame := 0 } := rfl

/-- The voice that the prologue leaves: CV application, then mode evaluation (20_memory.md R78). -/
theorem prologue_voice (t : Byte) (e : Bool) (s : State) (v : Fin 8) :
    (prologue t e s).voices.get v =
      modeEvalVoice (freeNaN s.draws v.val 0)
        ((debounce s.cfg (callbackLevels s t e) s.trig).rise.getLsbD v.val)
        ((debounce s.cfg (callbackLevels s t e) s.trig).released.getLsbD v.val)
        (cvApplyVoice s.cfg s.cv (freeNaN s.draws v.val 0) (s.voices.get v)) := by
  simp [prologue, modeEval, cvApply]

/-- The counter of channel i after a debounce (41_trigger.md R151). -/
theorem debounce_cnt (p : Params) (l : Byte) (t : Trigger) (i : Fin 8) :
    (debounce p l t).cnt.get i = debounceCount p (l.getLsbD i.val) (t.cnt.get i) := by
  simp [debounce]

/-- The rise bit of channel i after a debounce (41_trigger.md R151). -/
theorem debounce_rise (p : Params) (l : Byte) (t : Trigger) (i : Fin 8) :
    (debounce p l t).rise.getLsbD i.val = (((debounce p l t).cnt.get i).toNat == p.debounceThreshold) := by
  simp only [debounce, riseBits, Oct.getLsbD_bits, Oct.get_build]

/-- The released bit of channel i after a debounce (41_trigger.md R151). -/
theorem debounce_released (p : Params) (l : Byte) (t : Trigger) (i : Fin 8) :
    (debounce p l t).released.getLsbD i.val = ((debounce p l t).cnt.get i == 0) := by
  simp only [debounce, releasedBits, Oct.getLsbD_bits, Oct.get_build]

/-- CV application and mode evaluation leave a Suspended voice as it is (10_state.md R21). -/
theorem prologue_suspended (t : Byte) (e : Bool) (s : State) (v : Fin 8) (h : (s.voices.get v).state = .suspended) :
    (prologue t e s).voices.get v = s.voices.get v := by
  rw [prologue_voice]
  simp [modeEvalVoice, cvApplyVoice, h]

/-- A restart touches the phase and the play state only (43_voice.md R197). -/
theorem restart_frame (nan : F32) (x : Voice) :
    restart nan x = { x with phase := (restart nan x).phase, state := .playing } := rfl

/-! ## MIDI -/

/-- Everything a byte can do, by its class and the parser's state (42_midi.md R160). -/
theorem midiByte_status (b : Byte) (s : State) (h : b.getLsbD 7 = true) : midiByte b s = statusByte b s := by
  simp [midiByte, h]

theorem midiByte_data (b : BitVec 7) (s : State) : midiByte ((0 : BitVec 1) ++ b) s = dataByte b s := by
  have h7 : BitVec.getLsbD (w := 8) ((0 : BitVec 1) ++ b) 7 = false := by revert b; decide
  have hb : BitVec.extractLsb' (n := 8) 0 7 ((0 : BitVec 1) ++ b) = b := by revert b; decide
  unfold midiByte
  rw [if_neg (by rw [h7]; exact Bool.false_ne_true), hb]

/-- A dispatch touches the voices only (42_midi.md R167, R173 to R175). -/
theorem dispatchMidi_frame (st : Byte) (d1 d2 : BitVec 7) (s : State) :
    dispatchMidi st d1 d2 s = { s with voices := (dispatchMidi st d1 d2 s).voices } := by
  unfold dispatchMidi
  dsimp only
  split
  · split <;> rfl
  · rfl
  · rfl

/-- A byte touches the parser, the voices and the diagnostic stream only (42_midi.md R160 to R174). -/
theorem midiByte_frame (b : Byte) (s : State) :
    midiByte b s =
      { s with midi := (midiByte b s).midi, voices := (midiByte b s).voices, diag := (midiByte b s).diag } := by
  unfold midiByte
  split
  · unfold statusByte; split <;> [rfl; (split <;> rfl)]
  · unfold dataByte
    split
    · rfl
    · unfold dataFirst; dsimp only; split <;> rfl
    · unfold dataSecond; rw [dispatchMidi_frame]; rfl
    · rfl
    · rfl
    · unfold metaLength; split <;> rfl
    · unfold metaPayload; dsimp only; split <;> rfl

end Sys2Proof.Machine
end

