-- ==== Sys2Proof/Laws/PerInstr.lean ====
section
/-! SUPPORT. Families of statements made per instruction. EncodeLength: the encoder gives a host write three words and
every other event one (spec/30_encoding.md R102). -/

namespace Sys2Proof.Laws

/-- The instruction is a host write: the one event with a data word (30_encoding.md R91, R102). -/
def isHostWrite (i : Instr) : Bool :=
  match i with
  | .reset => false
  | .tick _ _ _ => false
  | .tickFail => false
  | .cb _ => false
  | .cbFail => false
  | .midiData _ => false
  | .midiNoteOffStatus _ => false
  | .midiNoteOnStatus _ => false
  | .midiPolyPressureStatus _ => false
  | .midiControlChangeStatus _ => false
  | .midiProgramChangeStatus _ => false
  | .midiChannelPressureStatus _ => false
  | .midiPitchBendStatus _ => false
  | .midiSystemF0F7 _ => false
  | .midiSystemF8FB _ => false
  | .midiSystemFCFD _ => false
  | .midiSystemFE => false
  | .midiMetaStart => false
  | .reservedPort5 => false
  | .reservedPort6 => false
  | .reservedPort7 => false
  | .rdErr => false
  | .wrErr _ => true
  | .rdRstat => false
  | .wrRstat _ => true
  | .rdEncCtrl => false
  | .wrEncCtrl _ => true
  | .rdEncValue => false
  | .wrEncValue _ => true
  | .rdEncButton => false
  | .wrEncButton _ => true
  | .rdEncDelta => false
  | .wrEncDelta _ => true
  | .rdEncAccel => false
  | .wrEncAccel _ => true
  | .rdEncHist => false
  | .wrEncHist _ => true
  | .rdEncKeydown => false
  | .wrEncKeydown _ => true
  | .rdEncDclk => false
  | .wrEncDclk _ => true
  | .rdEncPresc => false
  | .wrEncPresc _ => true
  | .rdEncBtnpeek => false
  | .wrEncBtnpeek _ => true
  | .rdTrigRaw => false
  | .wrTrigRaw _ => true
  | .rdTrigRise => false
  | .wrTrigRise _ => true
  | .rdTrigReleased => false
  | .wrTrigReleased _ => true
  | .rdTrigSteady => false
  | .wrTrigSteady _ => true
  | .rdTrigCnt _ => false
  | .wrTrigCnt _ _ => true
  | .rdCv _ => false
  | .wrCv _ _ => true
  | .rdMidiPstate => false
  | .wrMidiPstate _ => true
  | .rdMidiMeta => false
  | .wrMidiMeta _ => true
  | .rdVState _ => false
  | .wrVState _ _ => true
  | .rdVMode _ => false
  | .wrVMode _ _ => true
  | .rdVPhase _ => false
  | .wrVPhase _ _ => true
  | .rdVPhaseinc _ => false
  | .wrVPhaseinc _ _ => true
  | .rdVSpeed _ => false
  | .wrVSpeed _ _ => true
  | .rdVPitchf _ => false
  | .wrVPitchf _ _ => true
  | .rdVTranspose _ => false
  | .wrVTranspose _ _ => true
  | .rdVLevel _ => false
  | .wrVLevel _ _ => true
  | .rdVPan _ => false
  | .wrVPan _ _ => true
  | .rdVMidich _ => false
  | .wrVMidich _ _ => true
  | .rdVMidinote _ => false
  | .wrVMidinote _ _ => true
  | .rdVNativenote _ => false
  | .wrVNativenote _ _ => true
  | .rdVMidimode _ => false
  | .wrVMidimode _ _ => true
  | .rdVCvrLevel _ => false
  | .wrVCvrLevel _ _ => true
  | .rdVCvrPan _ => false
  | .wrVCvrPan _ _ => true
  | .rdVCvrSpeed _ => false
  | .wrVCvrSpeed _ _ => true
  | .rdVCvrPitch _ => false
  | .wrVCvrPitch _ _ => true
  | .rdVBufBase _ => false
  | .wrVBufBase _ _ => true
  | .rdVBufFrames _ => false
  | .wrVBufFrames _ _ => true
  | .rdVBufChannels _ => false
  | .wrVBufChannels _ _ => true
  | .reservedAccess w _ _ => w

namespace EncodeLength

/-- The encoding of `i` is 48 bits for a host write and 16 bits otherwise (30_encoding.md R102). -/
def Statement (i : Instr) : Prop := (encode i).length = if isHostWrite i then 3 else 1

theorem reset : Statement .reset := rfl
theorem tick (a : Bool) (b : Bool) (btn : Bool) : Statement (.tick a b btn) := rfl
theorem tickFail : Statement .tickFail := rfl
theorem cb (t : Byte) : Statement (.cb t) := rfl
theorem cbFail : Statement .cbFail := rfl
theorem midiData (b : BitVec 7) : Statement (.midiData b) := rfl
theorem midiNoteOffStatus (c : BitVec 4) : Statement (.midiNoteOffStatus c) := rfl
theorem midiNoteOnStatus (c : BitVec 4) : Statement (.midiNoteOnStatus c) := rfl
theorem midiPolyPressureStatus (c : BitVec 4) : Statement (.midiPolyPressureStatus c) := rfl
theorem midiControlChangeStatus (c : BitVec 4) : Statement (.midiControlChangeStatus c) := rfl
theorem midiProgramChangeStatus (c : BitVec 4) : Statement (.midiProgramChangeStatus c) := rfl
theorem midiChannelPressureStatus (c : BitVec 4) : Statement (.midiChannelPressureStatus c) := rfl
theorem midiPitchBendStatus (c : BitVec 4) : Statement (.midiPitchBendStatus c) := rfl
theorem midiSystemF0F7 (n : BitVec 3) : Statement (.midiSystemF0F7 n) := rfl
theorem midiSystemF8FB (n : BitVec 2) : Statement (.midiSystemF8FB n) := rfl
theorem midiSystemFCFD (n : BitVec 1) : Statement (.midiSystemFCFD n) := rfl
theorem midiSystemFE : Statement .midiSystemFE := rfl
theorem midiMetaStart : Statement .midiMetaStart := rfl
theorem reservedPort5 : Statement .reservedPort5 := rfl
theorem reservedPort6 : Statement .reservedPort6 := rfl
theorem reservedPort7 : Statement .reservedPort7 := rfl
theorem rdErr : Statement .rdErr := rfl
theorem wrErr (d : Word) : Statement (.wrErr d) := rfl
theorem rdRstat : Statement .rdRstat := rfl
theorem wrRstat (d : Word) : Statement (.wrRstat d) := rfl
theorem rdEncCtrl : Statement .rdEncCtrl := rfl
theorem wrEncCtrl (d : Word) : Statement (.wrEncCtrl d) := rfl
theorem rdEncValue : Statement .rdEncValue := rfl
theorem wrEncValue (d : Word) : Statement (.wrEncValue d) := rfl
theorem rdEncButton : Statement .rdEncButton := rfl
theorem wrEncButton (d : Word) : Statement (.wrEncButton d) := rfl
theorem rdEncDelta : Statement .rdEncDelta := rfl
theorem wrEncDelta (d : Word) : Statement (.wrEncDelta d) := rfl
theorem rdEncAccel : Statement .rdEncAccel := rfl
theorem wrEncAccel (d : Word) : Statement (.wrEncAccel d) := rfl
theorem rdEncHist : Statement .rdEncHist := rfl
theorem wrEncHist (d : Word) : Statement (.wrEncHist d) := rfl
theorem rdEncKeydown : Statement .rdEncKeydown := rfl
theorem wrEncKeydown (d : Word) : Statement (.wrEncKeydown d) := rfl
theorem rdEncDclk : Statement .rdEncDclk := rfl
theorem wrEncDclk (d : Word) : Statement (.wrEncDclk d) := rfl
theorem rdEncPresc : Statement .rdEncPresc := rfl
theorem wrEncPresc (d : Word) : Statement (.wrEncPresc d) := rfl
theorem rdEncBtnpeek : Statement .rdEncBtnpeek := rfl
theorem wrEncBtnpeek (d : Word) : Statement (.wrEncBtnpeek d) := rfl
theorem rdTrigRaw : Statement .rdTrigRaw := rfl
theorem wrTrigRaw (d : Word) : Statement (.wrTrigRaw d) := rfl
theorem rdTrigRise : Statement .rdTrigRise := rfl
theorem wrTrigRise (d : Word) : Statement (.wrTrigRise d) := rfl
theorem rdTrigReleased : Statement .rdTrigReleased := rfl
theorem wrTrigReleased (d : Word) : Statement (.wrTrigReleased d) := rfl
theorem rdTrigSteady : Statement .rdTrigSteady := rfl
theorem wrTrigSteady (d : Word) : Statement (.wrTrigSteady d) := rfl
theorem rdTrigCnt (i : Fin 8) : Statement (.rdTrigCnt i) := rfl
theorem wrTrigCnt (i : Fin 8) (d : Word) : Statement (.wrTrigCnt i d) := rfl
theorem rdCv (k : Fin 8) : Statement (.rdCv k) := rfl
theorem wrCv (k : Fin 8) (d : Word) : Statement (.wrCv k d) := rfl
theorem rdMidiPstate : Statement .rdMidiPstate := rfl
theorem wrMidiPstate (d : Word) : Statement (.wrMidiPstate d) := rfl
theorem rdMidiMeta : Statement .rdMidiMeta := rfl
theorem wrMidiMeta (d : Word) : Statement (.wrMidiMeta d) := rfl
theorem rdVState (v : Fin 8) : Statement (.rdVState v) := rfl
theorem wrVState (v : Fin 8) (d : Word) : Statement (.wrVState v d) := rfl
theorem rdVMode (v : Fin 8) : Statement (.rdVMode v) := rfl
theorem wrVMode (v : Fin 8) (d : Word) : Statement (.wrVMode v d) := rfl
theorem rdVPhase (v : Fin 8) : Statement (.rdVPhase v) := rfl
theorem wrVPhase (v : Fin 8) (d : Word) : Statement (.wrVPhase v d) := rfl
theorem rdVPhaseinc (v : Fin 8) : Statement (.rdVPhaseinc v) := rfl
theorem wrVPhaseinc (v : Fin 8) (d : Word) : Statement (.wrVPhaseinc v d) := rfl
theorem rdVSpeed (v : Fin 8) : Statement (.rdVSpeed v) := rfl
theorem wrVSpeed (v : Fin 8) (d : Word) : Statement (.wrVSpeed v d) := rfl
theorem rdVPitchf (v : Fin 8) : Statement (.rdVPitchf v) := rfl
theorem wrVPitchf (v : Fin 8) (d : Word) : Statement (.wrVPitchf v d) := rfl
theorem rdVTranspose (v : Fin 8) : Statement (.rdVTranspose v) := rfl
theorem wrVTranspose (v : Fin 8) (d : Word) : Statement (.wrVTranspose v d) := rfl
theorem rdVLevel (v : Fin 8) : Statement (.rdVLevel v) := rfl
theorem wrVLevel (v : Fin 8) (d : Word) : Statement (.wrVLevel v d) := rfl
theorem rdVPan (v : Fin 8) : Statement (.rdVPan v) := rfl
theorem wrVPan (v : Fin 8) (d : Word) : Statement (.wrVPan v d) := rfl
theorem rdVMidich (v : Fin 8) : Statement (.rdVMidich v) := rfl
theorem wrVMidich (v : Fin 8) (d : Word) : Statement (.wrVMidich v d) := rfl
theorem rdVMidinote (v : Fin 8) : Statement (.rdVMidinote v) := rfl
theorem wrVMidinote (v : Fin 8) (d : Word) : Statement (.wrVMidinote v d) := rfl
theorem rdVNativenote (v : Fin 8) : Statement (.rdVNativenote v) := rfl
theorem wrVNativenote (v : Fin 8) (d : Word) : Statement (.wrVNativenote v d) := rfl
theorem rdVMidimode (v : Fin 8) : Statement (.rdVMidimode v) := rfl
theorem wrVMidimode (v : Fin 8) (d : Word) : Statement (.wrVMidimode v d) := rfl
theorem rdVCvrLevel (v : Fin 8) : Statement (.rdVCvrLevel v) := rfl
theorem wrVCvrLevel (v : Fin 8) (d : Word) : Statement (.wrVCvrLevel v d) := rfl
theorem rdVCvrPan (v : Fin 8) : Statement (.rdVCvrPan v) := rfl
theorem wrVCvrPan (v : Fin 8) (d : Word) : Statement (.wrVCvrPan v d) := rfl
theorem rdVCvrSpeed (v : Fin 8) : Statement (.rdVCvrSpeed v) := rfl
theorem wrVCvrSpeed (v : Fin 8) (d : Word) : Statement (.wrVCvrSpeed v d) := rfl
theorem rdVCvrPitch (v : Fin 8) : Statement (.rdVCvrPitch v) := rfl
theorem wrVCvrPitch (v : Fin 8) (d : Word) : Statement (.wrVCvrPitch v d) := rfl
theorem rdVBufBase (v : Fin 8) : Statement (.rdVBufBase v) := rfl
theorem wrVBufBase (v : Fin 8) (d : Word) : Statement (.wrVBufBase v d) := rfl
theorem rdVBufFrames (v : Fin 8) : Statement (.rdVBufFrames v) := rfl
theorem wrVBufFrames (v : Fin 8) (d : Word) : Statement (.wrVBufFrames v d) := rfl
theorem rdVBufChannels (v : Fin 8) : Statement (.rdVBufChannels v) := rfl
theorem wrVBufChannels (v : Fin 8) (d : Word) : Statement (.wrVBufChannels v d) := rfl
theorem reservedAccess (w : Bool) (a : BitVec 12) (d : Word) : Statement (.reservedAccess w a d) := by cases w <;> rfl

end EncodeLength

end Sys2Proof.Laws
end

