-- ==== Sys2Proof/Laws/Rounding.lean ====
section
/-! SUPPORT. What rounding and the integer parts do, said once: the value `roundMag` and `pack` give is the nearest
binary32 value, ties to even (spec/00_scope.md R6), and `ffloor`, `fceil`, `ftrunc` are floor, ceiling and truncation. -/

namespace Sys2Proof.Machine

/-! ## Integer parts -/

theorem oneUnits_pos : 0 < (oneUnits : Int) := by decide

/-- `ffloor` of a finite value is its floor. -/
theorem ffloor_isFloor (x : F32) (h : isFinite x = true) : IsFloor x (ffloor x) := by
  unfold ffloor IsFloor
  rw [if_pos h]
  exact ⟨Int.ediv_mul_le _ oneUnits_pos.ne', Int.lt_ediv_add_one_mul_self _ oneUnits_pos⟩

/-- `fceil` of a finite value is its ceiling. -/
theorem fceil_isCeil (x : F32) (h : isFinite x = true) : IsCeil x (fceil x) := by
  unfold fceil IsCeil
  rw [if_pos h]
  have h1 := Int.ediv_mul_le (-units x) oneUnits_pos.ne'
  have h2 := Int.lt_ediv_add_one_mul_self (-units x) oneUnits_pos
  constructor <;> linarith

/-- A value has one floor. -/
theorem IsFloor.unique {x : F32} {k k' : Int} (h : IsFloor x k) (h' : IsFloor x k') : k = k' := by
  have := oneUnits_pos
  unfold IsFloor at h h'
  have h1 : k < k' + 1 := by by_contra hc; nlinarith
  have h2 : k' < k + 1 := by by_contra hc; nlinarith
  omega

/-- A value has one ceiling. -/
theorem IsCeil.unique {x : F32} {k k' : Int} (h : IsCeil x k) (h' : IsCeil x k') : k = k' := by
  have := oneUnits_pos
  unfold IsCeil at h h'
  have h1 : k - 1 < k' := by by_contra hc; nlinarith
  have h2 : k' - 1 < k := by by_contra hc; nlinarith
  omega

/-- `ftrunc` of a finite value is the value rounded toward zero. -/
theorem ftrunc_isTrunc (x : F32) (h : isFinite x = true) : IsTrunc x (ftrunc x) := by
  have h1 := Nat.div_mul_le_self (magUnits x) oneUnits
  have h2 := Nat.lt_div_mul_add (a := magUnits x) (b := oneUnits) (by decide)
  have h1' : ((magUnits x / oneUnits : Nat) : Int) * oneUnits ≤ magUnits x := by exact_mod_cast h1
  have h2' : (magUnits x : Int) < ((magUnits x / oneUnits : Nat) : Int) * oneUnits + oneUnits := by exact_mod_cast h2
  unfold ftrunc IsTrunc
  rw [if_pos h]
  cases hn : isNeg x
  · have hu : units x = magUnits x := by simp [units, hn]
    rw [if_pos (by rw [hu]; positivity), if_neg (by simp)]
    unfold IsFloor
    rw [hu]
    constructor <;> linarith
  · have hu : units x = -(magUnits x : Int) := by simp [units, hn]
    rw [if_pos rfl]
    split
    · next h0 =>
      have h0' : magUnits x = 0 := by rw [hu] at h0; omega
      unfold IsFloor
      rw [hu, h0']
      norm_num
      decide
    · unfold IsCeil
      rw [hu]
      constructor <;> linarith

/-! ## The value of packed bits -/

/-- The magnitude, in units, of the value whose bits [30:0] are `m`. -/
def magOf (m : Nat) : Nat := if m / 2 ^ 23 = 0 then m % 2 ^ 23 else (2 ^ 23 + m % 2 ^ 23) <<< (m / 2 ^ 23 - 1)

theorem pack_toNat (neg : Bool) (m : Nat) (h : m < 2 ^ 31) : (pack neg m).toNat = (if neg then 2 ^ 31 + m else m) := by
  unfold pack
  rw [BitVec.toNat_ofNat, Nat.mod_eq_of_lt]
  split
  all_goals omega

@[simp] theorem isNeg_pack (neg : Bool) (m : Nat) (h : m < 2 ^ 31) : isNeg (pack neg m) = neg := by
  unfold isNeg
  rw [BitVec.msb_eq_decide, pack_toNat neg m h]
  cases neg
  all_goals simp
  all_goals omega

theorem expField_eq (x : F32) : expField x = x.toNat % 2 ^ 31 / 2 ^ 23 := by
  unfold expField
  rw [BitVec.extractLsb'_toNat, Nat.shiftRight_eq_div_pow]
  omega

theorem fracField_eq (x : F32) : fracField x = x.toNat % 2 ^ 31 % 2 ^ 23 := by
  unfold fracField
  rw [BitVec.extractLsb'_toNat, Nat.shiftRight_eq_div_pow]
  omega

/-- The magnitude of a value is that of its bits [30:0]. -/
theorem magUnits_eq (x : F32) : magUnits x = magOf (x.toNat % 2 ^ 31) := by
  unfold magUnits magOf
  rw [expField_eq, fracField_eq]

theorem pack_mod (neg : Bool) (m : Nat) (h : m < 2 ^ 31) : (pack neg m).toNat % 2 ^ 31 = m := by
  rw [pack_toNat neg m h]
  split <;> omega

@[simp] theorem magUnits_pack (neg : Bool) (m : Nat) (h : m < 2 ^ 31) : magUnits (pack neg m) = magOf m := by
  rw [magUnits_eq, pack_mod neg m h]

@[simp] theorem isFinite_pack (neg : Bool) (m : Nat) (h : m < 0x7F800000) : isFinite (pack neg m) = true := by
  unfold isFinite
  rw [expField_eq, pack_mod neg m (by omega)]
  have : m / 2 ^ 23 ≠ 255 := by omega
  simpa using this

/-! ## Rounding -/

/-- How far the rounded quotient lies from the quotient, in units of 1 / d. -/
theorem roundQuot_dist (n d : Nat) (hd : 0 < d) :
    |(roundQuot n d * d : Int) - n| = min ((n % d : Nat) : Int) ((d : Int) - (n % d : Nat)) ∧
      (2 * (n % d) = d → roundQuot n d % 2 = 0) := by
  have hq : (n : Int) = (n / d : Nat) * d + (n % d : Nat) := by
    have := Nat.div_add_mod n d
    rw [Nat.mul_comm] at this
    exact_mod_cast this.symm
  have hr : n % d < d := Nat.mod_lt _ hd
  unfold roundQuot
  dsimp only
  generalize hqe : n / d = q at *
  generalize hre : n % d = r at *
  rw [hq]
  split
  · rw [show ((q : Int) * d - (q * d + (r : Int))) = -r by ring, abs_neg, Nat.abs_cast]
    omega
  · split
    · push_cast
      rw [show (((q : Int) + 1) * d - (q * d + (r : Int))) = d - r by ring, abs_of_nonneg (by omega)]
      omega
    · have h2 : (d : Int) = 2 * r := by omega
      refine ⟨?_, fun _ => by omega⟩
      rcases Nat.mod_two_eq_zero_or_one q with h | h <;> rw [h] <;> push_cast
      · rw [show (((q : Int) + 0) * d - (q * d + (r : Int))) = -r by ring, abs_neg, Nat.abs_cast]
        omega
      · rw [show (((q : Int) + 1) * d - (q * d + (r : Int))) = d - r by ring, abs_of_nonneg (by omega)]
        omega

/-- No multiple of `d` is nearer to `n` than the rounded quotient's, and where another is as near it is even. -/
theorem roundQuot_nearest (n d j : Nat) (hd : 0 < d) :
    |(roundQuot n d * d : Int) - n| ≤ |(j * d : Int) - n| ∧
      (j ≠ roundQuot n d → |(j * d : Int) - n| = |(roundQuot n d * d : Int) - n| → roundQuot n d % 2 = 0) := by
  obtain ⟨hdist, htie⟩ := roundQuot_dist n d hd
  have hq : (n : Int) = (n / d : Nat) * d + (n % d : Nat) := by
    have := Nat.div_add_mod n d
    rw [Nat.mul_comm] at this
    exact_mod_cast this.symm
  have hr : n % d < d := Nat.mod_lt _ hd
  have hd' : (0 : Int) < d := by exact_mod_cast hd
  rw [hdist]
  have hj : (j * d : Int) - n = (j - (n / d : Nat)) * d - (n % d : Nat) := by rw [hq]; ring
  rw [hj]
  by_cases hle : j ≤ n / d
  · have hk : ((j : Int) - (n / d : Nat)) * d ≤ 0 := mul_nonpos_of_nonpos_of_nonneg (by omega) hd'.le
    rw [abs_of_nonpos (by omega)]
    refine ⟨by omega, fun hne he => ?_⟩
    by_cases hje : j = n / d
    · refine htie ?_
      by_contra h2
      have h1 : ((j : Int) - (n / d : Nat)) * d = 0 := by rw [hje]; ring
      have : roundQuot n d = n / d := by unfold roundQuot; dsimp only; rw [if_pos (by omega)]
      exact hne (hje.trans this.symm)
    · exfalso
      have : ((j : Int) - (n / d : Nat)) * d ≤ -d := by nlinarith [show (j : Int) - (n / d : Nat) ≤ -1 by omega]
      omega
  · have hk : (d : Int) ≤ ((j : Int) - (n / d : Nat)) * d := by nlinarith [show 1 ≤ (j : Int) - (n / d : Nat) by omega]
    rw [abs_of_nonneg (by omega)]
    refine ⟨by omega, fun hne he => ?_⟩
    by_cases hje : j = n / d + 1
    · refine htie ?_
      by_contra h2
      have h1 : ((j : Int) - (n / d : Nat)) * d = d := by rw [hje]; push_cast; ring
      have : roundQuot n d = n / d + 1 := by
        unfold roundQuot
        dsimp only
        rw [if_neg (by omega), if_pos (by omega)]
      exact hne (hje.trans this.symm)
    · exfalso
      have : 2 * (d : Int) ≤ ((j : Int) - (n / d : Nat)) * d := by
        nlinarith [show 2 ≤ (j : Int) - (n / d : Nat) by omega]
      omega

/-- A rounded quotient of 24 bits, scaled by 2^sh. -/
theorem magOf_scaled (sh q : Nat) (h : 2 ^ 23 ≤ q ∨ sh = 0) (hq : q ≤ 2 ^ 24) :
    magOf (sh * 2 ^ 23 + q) = q * 2 ^ sh := by
  unfold magOf
  by_cases hlt : q < 2 ^ 23
  · obtain rfl : sh = 0 := by omega
    rw [if_pos (by omega)]
    omega
  · rw [if_neg (by omega), Nat.shiftLeft_eq]
    by_cases ht : q = 2 ^ 24
    · rw [show (sh * 2 ^ 23 + q) / 2 ^ 23 - 1 = sh + 1 by omega, show (sh * 2 ^ 23 + q) % 2 ^ 23 = 0 by omega, ht]
      ring
    · rw [show (sh * 2 ^ 23 + q) / 2 ^ 23 - 1 = sh by omega, show (sh * 2 ^ 23 + q) % 2 ^ 23 = q - 2 ^ 23 by omega,
        show 2 ^ 23 + (q - 2 ^ 23) = q by omega]

/-- Every magnitude is at most 2^(23 + sh) or a multiple of 2^sh. -/
theorem magOf_cases (sh k : Nat) : magOf k ≤ 2 ^ 23 * 2 ^ sh ∨ ∃ j, magOf k = j * 2 ^ sh := by
  unfold magOf
  split
  · left
    calc k % 2 ^ 23 ≤ 2 ^ 23 * 1 := by omega
      _ ≤ 2 ^ 23 * 2 ^ sh := Nat.mul_le_mul_left _ Nat.one_le_two_pow
  · next h0 =>
    rw [Nat.shiftLeft_eq]
    by_cases h : k / 2 ^ 23 ≤ sh
    · left
      calc (2 ^ 23 + k % 2 ^ 23) * 2 ^ (k / 2 ^ 23 - 1) ≤ 2 ^ 24 * 2 ^ (sh - 1) :=
            Nat.mul_le_mul (by omega) (Nat.pow_le_pow_right (by omega) (by omega))
        _ = 2 ^ 23 * 2 ^ sh := by
            rw [← pow_add, ← pow_add]
            congr 1
            omega
    · right
      refine ⟨(2 ^ 23 + k % 2 ^ 23) * 2 ^ (k / 2 ^ 23 - 1 - sh), ?_⟩
      rw [Nat.mul_assoc, ← pow_add]
      congr 2
      omega

/-- `roundMag` of a whole number of units: its parts. -/
theorem roundMag_one (n : Nat) (h : roundMag n 1 < 0x7F800000) :
    ∃ sh, roundMag n 1 = sh * 2 ^ 23 + roundQuot n (2 ^ sh) ∧ roundQuot n (2 ^ sh) ≤ 2 ^ 24 ∧
      (sh = 0 ∧ n < 2 ^ 24 ∨ 2 ^ 23 * 2 ^ sh ≤ n ∧ 2 ^ 23 ≤ roundQuot n (2 ^ sh)) := by
  unfold roundMag at *
  dsimp only at *
  rw [Nat.div_one] at *
  generalize hsh : Nat.log2 n - 23 = sh at *
  split at h
  · omega
  · next hs =>
    rw [Nat.shiftLeft_eq, Nat.one_mul] at *
    have hlt : n < 2 ^ 24 * 2 ^ sh := by
      rw [← pow_add]
      rcases Nat.eq_zero_or_pos n with rfl | hn
      · positivity
      · exact (Nat.log2_lt hn.ne').1 (by omega)
    have hpos : 0 < 2 ^ sh := by positivity
    have hq : n / 2 ^ sh < 2 ^ 24 := (Nat.div_lt_iff_lt_mul hpos).2 hlt
    refine ⟨sh, by rw [if_neg hs]; omega, ?_, ?_⟩
    · unfold roundQuot
      dsimp only
      split <;> [omega; (split <;> omega)]
    · by_cases h0 : sh = 0
      · left
        subst h0
        exact ⟨rfl, by simpa using hlt⟩
      · right
        have hn : n ≠ 0 := by rintro rfl; simp at hsh; omega
        have hle : 2 ^ 23 * 2 ^ sh ≤ n := by
          rw [← pow_add, show 23 + sh = Nat.log2 n by omega]
          exact Nat.log2_self_le hn
        have : 2 ^ 23 ≤ n / 2 ^ sh := (Nat.le_div_iff_mul_le hpos).2 hle
        refine ⟨hle, ?_⟩
        unfold roundQuot
        dsimp only
        split <;> [omega; (split <;> omega)]

/-- No magnitude is nearer to n units than the rounded one, and where another is as near its bit 0 is 0. -/
theorem roundMag_nearest (n k : Nat) (h : roundMag n 1 < 0x7F800000) :
    |(magOf (roundMag n 1) : Int) - n| ≤ |(magOf k : Int) - n| ∧
      (magOf k ≠ magOf (roundMag n 1) → |(magOf k : Int) - n| = |(magOf (roundMag n 1) : Int) - n| →
        roundMag n 1 % 2 = 0) := by
  obtain ⟨sh, he, hq, hcase⟩ := roundMag_one n h
  have hpos : 0 < 2 ^ sh := by positivity
  have hm : magOf (roundMag n 1) = roundQuot n (2 ^ sh) * 2 ^ sh := by
    rw [he]
    exact magOf_scaled sh _ (by omega) hq
  have hpar : roundQuot n (2 ^ sh) % 2 = 0 → roundMag n 1 % 2 = 0 := by omega
  have hmul : ∀ j : Nat, magOf k = j * 2 ^ sh →
      |(magOf (roundMag n 1) : Int) - n| ≤ |(magOf k : Int) - n| ∧
      (magOf k ≠ magOf (roundMag n 1) → |(magOf k : Int) - n| = |(magOf (roundMag n 1) : Int) - n| →
        roundMag n 1 % 2 = 0) := by
    intro j hj
    have := roundQuot_nearest n (2 ^ sh) j hpos
    rw [hm, hj]
    push_cast at *
    exact ⟨this.1, fun hne heq => hpar (this.2 (by rintro rfl; exact hne rfl) heq)⟩
  rcases hcase with ⟨rfl, -⟩ | ⟨hn, -⟩
  · exact hmul (magOf k) (by simp)
  · rcases magOf_cases sh k with hk | ⟨j, hj⟩
    · by_cases hke : magOf k = 2 ^ 23 * 2 ^ sh
      · exact hmul _ hke
      · have h1 := (roundQuot_nearest n (2 ^ sh) (2 ^ 23) hpos).1
        rw [hm]
        push_cast at *
        have hn' : (8388608 * 2 ^ sh : Int) ≤ n := by exact_mod_cast hn
        have hk' : (magOf k : Int) < 8388608 * 2 ^ sh := by exact_mod_cast lt_of_le_of_ne hk hke
        rw [abs_of_nonpos (a := (8388608 : Int) * 2 ^ sh - n) (by linarith)] at h1
        rw [abs_of_nonpos (a := (magOf k : Int) - n) (by linarith)]
        exact ⟨by linarith, fun _ heq => by linarith⟩
    · exact hmul j hj

/-- No integer that has the magnitude of a binary32 value is nearer to n units than the rounded one. -/
theorem roundMag_nearest_int (n k : Nat) (u : Int) (hu : u.natAbs = magOf k) (h : roundMag n 1 < 0x7F800000) :
    |(magOf (roundMag n 1) : Int) - n| ≤ |u - n| ∧
      (u ≠ magOf (roundMag n 1) → |u - n| = |(magOf (roundMag n 1) : Int) - n| → roundMag n 1 % 2 = 0) := by
  have h1 := roundMag_nearest n k h
  have h0 := roundMag_nearest n 0 h
  rw [show magOf 0 = 0 by decide, Nat.cast_zero, zero_sub, abs_neg, Nat.abs_cast] at h0
  by_cases hn : u < 0
  · rw [abs_of_nonpos (a := u - n) (by omega)]
    exact ⟨by omega, fun hne he => absurd he (by omega)⟩
  · rw [show u = (magOf k : Int) by omega]
    exact ⟨h1.1, fun hne => h1.2 (by exact_mod_cast hne)⟩

theorem natAbs_units (z : F32) : (units z).natAbs = magOf (z.toNat % 2 ^ 31) := by
  rw [← magUnits_eq]
  unfold units
  split <;> omega

/-- Rounding and packing is RNE of the real of `t` units, where it does not overflow (00_scope.md R6). Of a zero either
sign will do. -/
theorem pack_roundsTo (t : Int) (neg : Bool) (h : roundMag t.natAbs 1 < 0x7F800000)
    (hneg : t ≠ 0 → neg = decide (t < 0)) : RoundsTo t (pack neg (roundMag t.natAbs 1)) := by
  generalize hm : roundMag t.natAbs 1 = m at *
  have hu : units (pack neg m) = if neg then -(magOf m : Int) else magOf m := by
    unfold units
    rw [isNeg_pack neg m (by omega), magUnits_pack neg m (by omega)]
  have hbit : m % 2 = 0 → (pack neg m).getLsbD 0 = false := by
    intro he
    have : (pack neg m).toNat % 2 = 0 := by rw [pack_toNat neg m (by omega)]; split <;> omega
    rw [BitVec.getLsbD, Nat.testBit_zero, this]
    rfl
  have key : ∀ z : F32, |units (pack neg m) - t| ≤ |units z - t| ∧
      (units z ≠ units (pack neg m) → |units z - t| = |units (pack neg m) - t| → m % 2 = 0) := by
    intro z
    have hz := natAbs_units z
    rw [hu]
    by_cases ht : t < 0
    · obtain rfl : neg = true := by rw [hneg (by omega)]; simpa using ht
      have := roundMag_nearest_int t.natAbs _ (-units z) (by rw [Int.natAbs_neg]; exact hz) (by rw [hm]; exact h)
      rw [hm, show (t.natAbs : Int) = -t by omega, show -units z - -t = -(units z - t) by ring, abs_neg,
        show (magOf m : Int) - -t = -(-(magOf m : Int) - t) by ring, abs_neg] at this
      rw [if_pos rfl]
      exact ⟨this.1, fun hne => this.2 (by omega)⟩
    · have := roundMag_nearest_int t.natAbs _ (units z) hz (by rw [hm]; exact h)
      rw [hm, show (t.natAbs : Int) = t by omega] at this
      by_cases h0 : t = 0
      · subst h0
        have hm0 : m = 0 := by rw [← hm]; decide
        subst hm0
        rw [show magOf 0 = 0 by decide] at *
        simp at *
      · obtain rfl : neg = false := by rw [hneg h0]; simpa using ht
        exact this
  exact ⟨isFinite_pack neg m h, fun z _ => (key z).1, fun z _ hne he => hbit ((key z).2 hne he)⟩

/-- A real up to the largest finite value, (2^24 − 1) · 2^253 units, does not overflow. -/
theorem roundMag_lt (n : Nat) (h : n ≤ (2 ^ 24 - 1) * 2 ^ 253) : roundMag n 1 < 0x7F800000 := by
  have hn : Nat.log2 n - 23 ≤ 253 := by
    rcases Nat.eq_zero_or_pos n with rfl | hp
    · decide
    · have hl : ∀ i j, n < 2 ^ i * 2 ^ j → Nat.log2 n < i + j := fun i j hij =>
        (Nat.log2_lt hp.ne').2 (by rwa [pow_add])
      have := hl 24 253 (by omega)
      omega
  unfold roundMag
  dsimp only
  rw [Nat.div_one]
  generalize hsh : Nat.log2 n - 23 = sh at *
  have hpos : 0 < 2 ^ sh := by positivity
  have hq : n / 2 ^ sh < 2 ^ 24 := by
    refine (Nat.div_lt_iff_lt_mul hpos).2 ?_
    rw [← pow_add]
    rcases Nat.eq_zero_or_pos n with rfl | hp
    · positivity
    · exact (Nat.log2_lt hp.ne').1 (by omega)
  rw [if_neg (by omega), Nat.shiftLeft_eq, Nat.one_mul]
  have hr : roundQuot n (2 ^ sh) ≤ 2 ^ 24 := by
    unfold roundQuot
    dsimp only
    split <;> [omega; (split <;> omega)]
  by_cases h3 : sh = 253
  · subst h3
    have hr2 : roundQuot n (2 ^ 253) ≤ 2 ^ 24 - 1 := by
      have hqle : n / 2 ^ 253 ≤ 2 ^ 24 - 1 := by omega
      by_cases hqe : n / 2 ^ 253 = 2 ^ 24 - 1
      · have hr0 : n % 2 ^ 253 = 0 := by
          have := Nat.div_add_mod n (2 ^ 253)
          rw [hqe] at this
          omega
        unfold roundQuot
        dsimp only
        rw [hr0, if_pos (by positivity)]
        omega
      · unfold roundQuot
        dsimp only
        split <;> [omega; (split <;> omega)]
    omega
  · omega

/-- A common factor of the numerator and the denominator drops out. -/
theorem roundMag_mul (n d : Nat) (hd : 0 < d) : roundMag (n * d) d = roundMag n 1 := by
  have hq : ∀ e : Nat, roundQuot (n * d) (d * e) = roundQuot n e := by
    intro e
    unfold roundQuot
    rw [Nat.mul_comm n d, Nat.mul_div_mul_left _ _ hd, Nat.mul_mod_mul_left]
    dsimp only
    have h1 : 2 * (d * (n % e)) < d * e ↔ 2 * (n % e) < e := by
      rw [Nat.mul_left_comm]; exact Nat.mul_lt_mul_left hd
    have h2 : d * e < 2 * (d * (n % e)) ↔ e < 2 * (n % e) := by
      rw [Nat.mul_left_comm]; exact Nat.mul_lt_mul_left hd
    simp only [h1, h2]
  unfold roundMag
  simp only [Nat.mul_div_cancel _ hd, Nat.div_one, Nat.shiftLeft_eq, hq, Nat.one_mul]

/-- Rounding does not pass below a binary32 value that the real is not below. -/
theorem RoundsTo.le_units {n : Int} {q z : F32} (h : RoundsTo n q) (hz : isFinite z = true) (hle : units z ≤ n) :
    units z ≤ units q := by
  have := h.2.1 z hz
  by_contra hc
  rw [abs_of_nonpos (a := units q - n) (by omega), abs_of_nonpos (a := units z - n) (by omega)] at this
  omega

/-- Rounding does not pass above a binary32 value that the real is not above. -/
theorem RoundsTo.units_le {n : Int} {q z : F32} (h : RoundsTo n q) (hz : isFinite z = true) (hle : n ≤ units z) :
    units q ≤ units z := by
  have := h.2.1 z hz
  by_contra hc
  rw [abs_of_nonneg (a := units q - n) (by omega), abs_of_nonneg (a := units z - n) (by omega)] at this
  omega

/-! ## The operations -/

/-- A finite value is no NaN and no infinity. -/
theorem isFinite_iff (x : F32) : isFinite x = true ↔ isNaN x = false ∧ isInf x = false := by
  unfold isFinite isNaN isInf
  by_cases h : expField x = 255 <;> by_cases h' : fracField x = 0 <;> simp [h, h']

/-- The sum of two finite values is their exact sum, rounded, where it does not overflow (00_scope.md R6). -/
theorem fadd_roundsTo (nan a b : F32) (ha : isFinite a = true) (hb : isFinite b = true)
    (h : roundMag (units a + units b).natAbs 1 < 0x7F800000) : RoundsTo (units a + units b) (fadd nan a b) := by
  rw [isFinite_iff] at ha hb
  unfold fadd
  simp only [ha, hb, Bool.or_self, Bool.false_eq_true, if_false]
  generalize units a + units b = t at *
  split
  · next h0 =>
    subst h0
    exact pack_roundsTo 0 _ h (fun hc => absurd rfl hc)
  · exact pack_roundsTo t _ h (fun _ => rfl)

/-- A binary32 magnitude rounds to itself. -/
theorem magOf_roundMag (k : Nat) (h : magOf k ≤ (2 ^ 24 - 1) * 2 ^ 253) : magOf (roundMag (magOf k) 1) = magOf k := by
  have := (roundMag_nearest (magOf k) k (roundMag_lt _ h)).1
  rw [sub_self, abs_zero] at this
  have := abs_eq_zero.1 (le_antisymm this (abs_nonneg _))
  omega

/-- Whole numbers up to 2^24 are binary32 magnitudes. -/
theorem exists_magOf (a : Nat) (h : a ≤ 2 ^ 24) : ∃ k, magOf k = a * oneUnits := by
  have ho : oneUnits = 2 ^ 149 := by decide
  rcases Nat.eq_zero_or_pos a with rfl | hp
  · exact ⟨0, by rw [Nat.zero_mul]; decide⟩
  · by_cases ht : a = 2 ^ 24
    · exact ⟨149 * 2 ^ 23 + 2 ^ 24, by rw [magOf_scaled 149 _ (by omega) le_rfl, ho, ht]⟩
    · have hl : Nat.log2 a ≤ 23 := by
        have : Nat.log2 a < 24 := (Nat.log2_lt hp.ne').2 (by omega)
        omega
      have h1 : 2 ^ Nat.log2 a ≤ a := Nat.log2_self_le hp.ne'
      have h2 : a < 2 ^ (Nat.log2 a + 1) := Nat.lt_log2_self
      refine ⟨(126 + Nat.log2 a) * 2 ^ 23 + a * 2 ^ (23 - Nat.log2 a), ?_⟩
      rw [magOf_scaled, Nat.mul_assoc, ← pow_add, ho,
        show 23 - Nat.log2 a + (126 + Nat.log2 a) = 149 by omega]
      · left
        calc 2 ^ 23 = 2 ^ Nat.log2 a * 2 ^ (23 - Nat.log2 a) := by
              rw [← pow_add, show Nat.log2 a + (23 - Nat.log2 a) = 23 by omega]
          _ ≤ a * 2 ^ (23 - Nat.log2 a) := Nat.mul_le_mul_right _ h1
      · calc a * 2 ^ (23 - Nat.log2 a) ≤ 2 ^ (Nat.log2 a + 1) * 2 ^ (23 - Nat.log2 a) := Nat.mul_le_mul_right _ h2.le
          _ = 2 ^ 24 := by rw [← pow_add, show Nat.log2 a + 1 + (23 - Nat.log2 a) = 24 by omega]

/-- `flt` is exact up to 2^24 (00_scope.md R6). -/
theorem units_flt (n : Int) (h : n.natAbs ≤ 2 ^ 24) : isFinite (flt n) = true ∧ units (flt n) = n * oneUnits := by
  obtain ⟨k, hk⟩ := exists_magOf n.natAbs h
  have hle : magOf k ≤ (2 ^ 24 - 1) * 2 ^ 253 := by
    rw [hk]
    calc n.natAbs * oneUnits ≤ 2 ^ 24 * oneUnits := Nat.mul_le_mul_right _ h
      _ ≤ _ := by decide
  have hm := magOf_roundMag k hle
  have hlt := roundMag_lt _ hle
  unfold flt
  rw [hk] at hm hlt
  refine ⟨isFinite_pack _ _ hlt, ?_⟩
  unfold units
  rw [isNeg_pack _ _ (by omega), magUnits_pack _ _ (by omega), hm]
  push_cast
  split
  · next hn => rw [show |n| = -n from abs_of_neg (by simpa using hn)]; ring
  · next hn => rw [show |n| = n from abs_of_nonneg (by simpa using hn)]

/-- The sign bit of `flt`. -/
theorem isNeg_flt (n : Int) (h : n.natAbs ≤ 2 ^ 24) : isNeg (flt n) = decide (n < 0) := by
  obtain ⟨k, hk⟩ := exists_magOf n.natAbs h
  unfold flt
  refine isNeg_pack _ _ ?_
  have : roundMag (n.natAbs * oneUnits) 1 < 0x7F800000 := by
    refine roundMag_lt _ ?_
    calc n.natAbs * oneUnits ≤ 2 ^ 24 * oneUnits := Nat.mul_le_mul_right _ h
      _ ≤ _ := by decide
  omega

/-- A product with a whole number is the exact product, rounded, where it does not overflow (00_scope.md R6). -/
theorem fmul_flt_roundsTo (nan a : F32) (k : Int) (ha : isFinite a = true) (hk : k.natAbs ≤ 2 ^ 24)
    (h : roundMag (k * units a).natAbs 1 < 0x7F800000) : RoundsTo (k * units a) (fmul nan a (flt k)) := by
  obtain ⟨hf, hu⟩ := units_flt k hk
  have hs := isNeg_flt k hk
  have hmk : magUnits (flt k) = k.natAbs * oneUnits := by
    have : (units (flt k)).natAbs = magUnits (flt k) := by rw [natAbs_units, magUnits_eq]
    rw [← this, hu, Int.natAbs_mul, Int.natAbs_natCast]
  have hma : (units a).natAbs = magUnits a := by rw [natAbs_units, magUnits_eq]
  rw [isFinite_iff] at ha hf
  unfold fmul
  simp only [ha, hf, Bool.or_self, Bool.false_eq_true, if_false]
  rw [hmk, show magUnits a * (k.natAbs * oneUnits) = (k * units a).natAbs * oneUnits by
    rw [Int.natAbs_mul, hma]; ring, roundMag_mul _ _ (by decide), hs]
  refine pack_roundsTo _ _ h (fun h0 => ?_)
  have hk0 : k ≠ 0 := by rintro rfl; simp at h0
  have ha0 : units a ≠ 0 := by intro hc; rw [hc] at h0; simp at h0
  have han : isNeg a = decide (units a < 0) := by
    unfold units at *
    split at ha0 <;> simp_all
    omega
  rw [han]
  by_cases h1 : units a < 0 <;> by_cases h2 : k < 0 <;> simp [h1, h2]
  · nlinarith
  · nlinarith [show 0 < k by omega]
  · nlinarith [show 0 < units a by omega]
  · nlinarith [show 0 < k by omega, show 0 < units a by omega]

/-! ## Wrap -/

/-- The wrapped phase is the fraction above the floor, rounded, and +0.0 where that rounds to 1.0 (44_mixer.md R216). -/
theorem wrapPhase_roundsTo (p2 : F32) (h : isFinite p2 = true) : ∃ q : F32,
    RoundsTo (units p2 - ffloor p2 * oneUnits) q ∧ isNeg q = false ∧ wrapPhase p2 = if q = f1 then f0 else q := by
  have h0 := Int.emod_nonneg (units p2) oneUnits_pos.ne'
  have h1 := Int.emod_lt_of_pos (units p2) oneUnits_pos
  have hr : units p2 % (oneUnits : Int) = units p2 - ffloor p2 * oneUnits := by
    rw [ffloor, if_pos h, Int.emod_def, mul_comm]
  have ha : (units p2 % (oneUnits : Int)).natAbs = (units p2 % (oneUnits : Int)).toNat := by omega
  have hlt : roundMag (units p2 % (oneUnits : Int)).toNat 1 < 0x7F800000 := by
    refine roundMag_lt _ ?_
    have : oneUnits ≤ (2 ^ 24 - 1) * 2 ^ 253 := by decide
    omega
  refine ⟨pack false (roundMag (units p2 % (oneUnits : Int)).toNat 1), ?_, isNeg_pack _ _ (by omega), ?_⟩
  · rw [← hr, ← ha]
    exact pack_roundsTo _ false (by rw [ha]; exact hlt) (fun _ => by symm; simpa using h0)
  · rw [wrapPhase, if_pos h]

end Sys2Proof.Machine
end

