-- ==== Sys2Proof/Laws/Step.lean ====
section
/-! SUPPORT. What a step can do, said once: whose turn it is, and the parts of a frame. -/

namespace Sys2Proof.Machine

/-- Everything a step can do, by whose turn it is (20_memory.md R72). -/
theorem step_cases (s : State) :
    (∃ ts i rest, (s.turns = [] ∧ ts = [] ∨ s.turns = .event :: ts) ∧ decode s.inbox = .ok i rest ∧
      step s = exec i { s with turns := ts, inbox := rest }) ∨
    (∃ ts why, (s.turns = [] ∧ ts = [] ∨ s.turns = .event :: ts) ∧ decode s.inbox = .reject why ∧
      step s = renderStep { s with turns := ts }) ∨
    (∃ ts, s.turns = .render :: ts ∧ step s = renderStep { s with turns := ts }) ∨
    (∃ ts a d, s.turns = .sample a d :: ts ∧ step s = .next ({ s with turns := ts }.storeSample a d)) := by
  obtain ⟨cfg, voices, enc, trig, cv, midi, rBusy, rFrame, err, mem, held, inbox, turns, audio, diag, responses, draws⟩ := s
  cases turns with
  | nil =>
    cases hd : decode inbox with
    | ok i rest => exact .inl ⟨[], i, rest, .inl ⟨rfl, rfl⟩, rfl, by simp [step, eventStep, hd]⟩
    | reject why => exact .inr (.inl ⟨[], why, .inl ⟨rfl, rfl⟩, rfl, by simp [step, eventStep, hd]⟩)
  | cons t ts =>
    cases t with
    | event =>
      cases hd : decode inbox with
      | ok i rest => exact .inl ⟨ts, i, rest, .inr rfl, rfl, by simp [step, eventStep, hd]⟩
      | reject why => exact .inr (.inl ⟨ts, why, .inr rfl, rfl, by simp [step, eventStep, hd]⟩)
    | render => exact .inr (.inr (.inl ⟨ts, rfl, rfl⟩))
    | sample a d => exact .inr (.inr (.inr ⟨ts, a, d, rfl, rfl⟩))

/-- Everything a turn of RENDER can do (44_mixer.md R210, 41_trigger.md R150). -/
theorem renderStep_cases (s : State) :
    (s.rBusy = true ∧ renderStep s = frameStep s) ∨
    (∃ c rest, s.rBusy = false ∧ s.held = c :: rest ∧
      renderStep s = .next (prologue c.levels c.failed { s with held := rest })) ∨
    (s.rBusy = false ∧ s.held = [] ∧ renderStep s = .next s) := by
  cases hb : s.rBusy with
  | true => exact .inl ⟨rfl, by simp [renderStep, hb]⟩
  | false =>
    cases hh : s.held with
    | nil => exact .inr (.inr ⟨rfl, rfl, by simp [renderStep, hb, hh]⟩)
    | cons c rest => exact .inr (.inl ⟨c, rest, rfl, rfl, by simp [renderStep, hb, hh]⟩)

/-- The advance of one voice in a frame of `s` (44_mixer.md R212, R213, R216, R217): a Suspended voice stays. -/
def framedVoice (s : State) (v : Fin 8) (x : Voice) : Voice :=
  if x.state = .suspended then x
  else
    advanceVoice x (fadd (freeNaN s.draws v.val 1) x.phase (increment (freeNaN s.draws v.val 0) x))
      (increment (freeNaN s.draws v.val 0) x)

/-- Everything one voice's part of a frame can do to the voices (44_mixer.md R210, R211). -/
theorem mixVoice_voices (s : State) (m m' : Mix) (v : Fin 8) (h : mixVoice s m v = .ok m') :
    m'.voices = m.voices.set v (framedVoice s v (m.voices.get v)) := by
  unfold mixVoice at h
  unfold framedVoice
  dsimp only at h
  split at h
  · next hs => cases h; rw [if_pos hs, Oct.set_get_self]
  · next hs =>
    rw [if_neg hs]
    split at h
    · split at h
      · cases h
      · cases h; rfl
    · cases h; rfl

/-- A voice that is not Playing changes neither sum (44_mixer.md R211, R221). -/
theorem mixVoice_quiet (s : State) (m : Mix) (v : Fin 8) (h : (m.voices.get v).state ≠ .playing) :
    mixVoice s m v = .ok { m with voices := m.voices.set v (framedVoice s v (m.voices.get v)) } := by
  unfold mixVoice framedVoice
  dsimp only
  split
  · rw [Oct.set_get_self]
  · rfl

/-- A Playing voice adds its sample, times the gains of its level and pan, to the two sums (44_mixer.md R214, R215). -/
theorem mixVoice_playing (s : State) (m m' : Mix) (v : Fin 8) (hp : (m.voices.get v).state = .playing)
    (h : mixVoice s m v = .ok m') :
    let x := m.voices.get v
    let nan := freeNaN s.draws v.val
    ∃ sample, lookup s.mem s.draws v.val (nan 2) x (fadd (nan 1) x.phase (increment (nan 0) x)) (increment (nan 0) x) =
        .ok sample ∧
      m'.l = addTerm (nan 3) (nan 2) m.l (fmul (nan 2) sample (levelGain (nan 2) x)) (leftGain (nan 2) x) ∧
      m'.r = addTerm (nan 4) (nan 2) m.r (fmul (nan 2) sample (levelGain (nan 2) x)) (rightGain (nan 2) x) := by
  unfold mixVoice at h
  dsimp only at h ⊢
  rw [if_neg (by simp [hp]), if_pos hp] at h
  split at h
  · cases h
  · next sample hs => cases h; exact ⟨sample, hs, rfl, rfl⟩

/-- Each voice's part of a frame reads that voice as it was before the frame. -/
theorem mixVoices_voices (s : State) (l : List (Fin 8)) (m m' : Mix) (hl : l.Nodup) (h : mixVoices s l m = .ok m')
    (v : Fin 8) :
    m'.voices.get v = if v ∈ l then framedVoice s v (m.voices.get v) else m.voices.get v := by
  induction l generalizing m with
  | nil => cases h; simp
  | cons w rest ih =>
    rw [List.nodup_cons] at hl
    unfold mixVoices at h
    split at h
    · cases h
    · next m1 h1 =>
      rw [ih m1 hl.2 h, mixVoice_voices s m m1 w h1, Oct.get_set]
      by_cases hv : v = w
      · subst hv; simp [hl.1]
      · simp [hv]

/-- Everything a frame step can do (44_mixer.md R210, R218): it is stuck at a missing word of memory, or it advances
every voice, emits one OUT and moves RENDER's position. -/
theorem frameStep_cases (s : State) :
    (∃ f, mixVoices s octIndices ⟨s.voices, f0, f0⟩ = .error f ∧ frameStep s = .fault f) ∨
    (∃ m, mixVoices s octIndices ⟨s.voices, f0, f0⟩ = .ok m ∧
      (∀ v, m.voices.get v = framedVoice s v (s.voices.get v)) ∧
      frameStep s = .next (frameAdvance ({ s with voices := m.voices, draws := s.draws + 1 }.emitOut m.l m.r))) := by
  cases h : mixVoices s octIndices ⟨s.voices, f0, f0⟩ with
  | error f => exact .inl ⟨f, rfl, by simp [frameStep, h]⟩
  | ok m =>
    refine .inr ⟨m, rfl, fun v => ?_, by simp [frameStep, h]⟩
    have hv : v ∈ octIndices := by revert v; decide
    rw [mixVoices_voices s octIndices _ m (by decide) h v, if_pos hv]

/-- FrameAdvance touches RENDER's position only (44_mixer.md R218). -/
theorem frameAdvance_frame (s : State) :
    frameAdvance s = { s with rBusy := (frameAdvance s).rBusy, rFrame := (frameAdvance s).rFrame } := by
  unfold frameAdvance
  split <;> rfl

end Sys2Proof.Machine
end

