-- ==== Sys2Proof/Tests/Slice0.lean ====
section
/-! SUPPORT. Tests. Expected results are those of spec/95_test_vectors.md (named N1, E2, T1 ...) and of the encodings of
spec/30_encoding.md and spec/opcode_table.json. The theorems named witness_… meet the hypotheses of a statement. -/

namespace Sys2Proof.Tests

open Sys2Proof.Machine

/-! ## Helpers -/

/-- The parameters of spec/95_test_vectors.md, with two frames a callback. -/
def params : Params := ⟨2, 3072, 25, 2, 2, 3, 4, 2, 0, 2000, false⟩

/-- The reset state with those parameters. -/
def base : State := State.powerOn params

/-- Whether an instruction or step answers a next state that `f` holds of. -/
def after (r : Result) (f : State → Bool) : Bool :=
  match r with
  | .next t => f t
  | .fault _ => false
  | .refused _ => false

/-- Whether a step stops with the fault `f`. -/
def faults (r : Result) (f : Fault) : Bool :=
  match r with
  | .next _ => false
  | .fault g => g == f
  | .refused _ => false

/-- Whether each of the word sequences is exactly one event, that of the instruction beside it. -/
def decodesAll (l : List (List Half × Instr)) : Bool := l.all fun x => decide (decode x.1 = .ok x.2 [])

/-- Voice 0 with a buffer of four frames of one channel at word 0, in state `st` (vector X1). -/
def voice (st : PlayState) : Voice := { Voice.reset 0 with state := st, bufFrames := 4, bufChannels := 1 }

/-- The state with that voice 0, and words 0 to 3 of sample memory holding 0.0, 1.0, 2.0, 3.0. -/
def ready (st : PlayState) : State :=
  { base.setVoice 0 (voice st) with
    mem := writeWord (writeWord (writeWord (writeWord [] 0 0x00000000) 1 0x3F800000) 2 0x40000000) 3 0x40400000 }

/-- The same with a callback in progress. -/
def rendering (st : PlayState) : State := { ready st with rBusy := true }

/-- The state with the encoder `c`. -/
def withEnc (c : Encoder) : State := base.setEnc c

/-- The encoder after its first tick at levels 0 0 (vector E1). -/
def primed : Encoder := { Encoder.reset with primed := true }

/-- The state with the parser `m` and a voice 0 that is Silent and listens as Pitched on wire channel 2. -/
def midiState (m : Midi) : State :=
  (base.setVoice 0 { voice .silent with midiMode := .pitched, midiChannel := 3 }).setMidi m

/-! ## Decoding -/

/-- Words of the ports other than host and MIDI, from the patterns of spec/opcode_table.json (30_encoding.md R90 to R96). -/
theorem test_decode_ports : decodesAll [
    ([0x9FFF], .reset),
    ([0x5FF6], .tick false true true),
    ([0x400F], .tickFail),
    ([0x6081], .cb 0x81),
    ([0x61FF], .cbFail),
    ([0xA123], .reservedPort5),
    ([0xC123], .reservedPort6),
    ([0xE123], .reservedPort7)] = true := by decide

/-- Words of the MIDI bytes, from the patterns of spec/opcode_table.json (30_encoding.md R90 to R96). -/
theorem test_decode_midi : decodesAll [
    ([0x2F45], .midiData 0x45),
    ([0x2085], .midiNoteOffStatus 5),
    ([0x2095], .midiNoteOnStatus 5),
    ([0x20A5], .midiPolyPressureStatus 5),
    ([0x20B5], .midiControlChangeStatus 5),
    ([0x20C5], .midiProgramChangeStatus 5),
    ([0x20D5], .midiChannelPressureStatus 5),
    ([0x20E5], .midiPitchBendStatus 5),
    ([0x20F5], .midiSystemF0F7 5),
    ([0x20FA], .midiSystemF8FB 2),
    ([0x20FD], .midiSystemFCFD 1),
    ([0x20FE], .midiSystemFE),
    ([0x20FF], .midiMetaStart)] = true := by decide

/-- Words of the global reads, from the patterns of spec/opcode_table.json (30_encoding.md R90 to R96). -/
theorem test_decode_global_reads : decodesAll [
    ([0x0000], .rdErr),
    ([0x0001], .rdRstat),
    ([0x0010], .rdEncCtrl),
    ([0x0011], .rdEncValue),
    ([0x0012], .rdEncButton),
    ([0x0013], .rdEncDelta),
    ([0x0014], .rdEncAccel),
    ([0x0015], .rdEncHist),
    ([0x0016], .rdEncKeydown),
    ([0x0017], .rdEncDclk),
    ([0x0018], .rdEncPresc),
    ([0x0019], .rdEncBtnpeek),
    ([0x0020], .rdTrigRaw),
    ([0x0021], .rdTrigRise),
    ([0x0022], .rdTrigReleased),
    ([0x0023], .rdTrigSteady),
    ([0x002E], .rdTrigCnt 6),
    ([0x0036], .rdCv 6),
    ([0x0040], .rdMidiPstate),
    ([0x0041], .rdMidiMeta)] = true := by decide

/-- Words of the global writes, from the patterns of spec/opcode_table.json (30_encoding.md R90 to R96). -/
theorem test_decode_global_writes : decodesAll [
    ([0x1000, 0xCDEF, 0x89AB], .wrErr 0x89ABCDEF),
    ([0x1001, 0xCDEF, 0x89AB], .wrRstat 0x89ABCDEF),
    ([0x1010, 0xCDEF, 0x89AB], .wrEncCtrl 0x89ABCDEF),
    ([0x1011, 0xCDEF, 0x89AB], .wrEncValue 0x89ABCDEF),
    ([0x1012, 0xCDEF, 0x89AB], .wrEncButton 0x89ABCDEF),
    ([0x1013, 0xCDEF, 0x89AB], .wrEncDelta 0x89ABCDEF),
    ([0x1014, 0xCDEF, 0x89AB], .wrEncAccel 0x89ABCDEF),
    ([0x1015, 0xCDEF, 0x89AB], .wrEncHist 0x89ABCDEF),
    ([0x1016, 0xCDEF, 0x89AB], .wrEncKeydown 0x89ABCDEF),
    ([0x1017, 0xCDEF, 0x89AB], .wrEncDclk 0x89ABCDEF),
    ([0x1018, 0xCDEF, 0x89AB], .wrEncPresc 0x89ABCDEF),
    ([0x1019, 0xCDEF, 0x89AB], .wrEncBtnpeek 0x89ABCDEF),
    ([0x1020, 0xCDEF, 0x89AB], .wrTrigRaw 0x89ABCDEF),
    ([0x1021, 0xCDEF, 0x89AB], .wrTrigRise 0x89ABCDEF),
    ([0x1022, 0xCDEF, 0x89AB], .wrTrigReleased 0x89ABCDEF),
    ([0x1023, 0xCDEF, 0x89AB], .wrTrigSteady 0x89ABCDEF),
    ([0x102E, 0xCDEF, 0x89AB], .wrTrigCnt 6 0x89ABCDEF),
    ([0x1036, 0xCDEF, 0x89AB], .wrCv 6 0x89ABCDEF),
    ([0x1040, 0xCDEF, 0x89AB], .wrMidiPstate 0x89ABCDEF),
    ([0x1041, 0xCDEF, 0x89AB], .wrMidiMeta 0x89ABCDEF)] = true := by decide

/-- Words of the voice reads, from the patterns of spec/opcode_table.json (30_encoding.md R90 to R96). -/
theorem test_decode_voice_reads : decodesAll [
    ([0x01A0], .rdVState 5),
    ([0x01A1], .rdVMode 5),
    ([0x01A2], .rdVPhase 5),
    ([0x01A3], .rdVPhaseinc 5),
    ([0x01A4], .rdVSpeed 5),
    ([0x01A5], .rdVPitchf 5),
    ([0x01A6], .rdVTranspose 5),
    ([0x01A7], .rdVLevel 5),
    ([0x01A8], .rdVPan 5),
    ([0x01A9], .rdVMidich 5),
    ([0x01AA], .rdVMidinote 5),
    ([0x01AB], .rdVNativenote 5),
    ([0x01AC], .rdVMidimode 5),
    ([0x01AD], .rdVCvrLevel 5),
    ([0x01AE], .rdVCvrPan 5),
    ([0x01AF], .rdVCvrSpeed 5),
    ([0x01B0], .rdVCvrPitch 5),
    ([0x01B1], .rdVBufBase 5),
    ([0x01B2], .rdVBufFrames 5),
    ([0x01B3], .rdVBufChannels 5)] = true := by decide

/-- Words of the voice writes, from the patterns of spec/opcode_table.json (30_encoding.md R90 to R96). -/
theorem test_decode_voice_writes : decodesAll [
    ([0x11A0, 0xCDEF, 0x89AB], .wrVState 5 0x89ABCDEF),
    ([0x11A1, 0xCDEF, 0x89AB], .wrVMode 5 0x89ABCDEF),
    ([0x11A2, 0xCDEF, 0x89AB], .wrVPhase 5 0x89ABCDEF),
    ([0x11A3, 0xCDEF, 0x89AB], .wrVPhaseinc 5 0x89ABCDEF),
    ([0x11A4, 0xCDEF, 0x89AB], .wrVSpeed 5 0x89ABCDEF),
    ([0x11A5, 0xCDEF, 0x89AB], .wrVPitchf 5 0x89ABCDEF),
    ([0x11A6, 0xCDEF, 0x89AB], .wrVTranspose 5 0x89ABCDEF),
    ([0x11A7, 0xCDEF, 0x89AB], .wrVLevel 5 0x89ABCDEF),
    ([0x11A8, 0xCDEF, 0x89AB], .wrVPan 5 0x89ABCDEF),
    ([0x11A9, 0xCDEF, 0x89AB], .wrVMidich 5 0x89ABCDEF),
    ([0x11AA, 0xCDEF, 0x89AB], .wrVMidinote 5 0x89ABCDEF),
    ([0x11AB, 0xCDEF, 0x89AB], .wrVNativenote 5 0x89ABCDEF),
    ([0x11AC, 0xCDEF, 0x89AB], .wrVMidimode 5 0x89ABCDEF),
    ([0x11AD, 0xCDEF, 0x89AB], .wrVCvrLevel 5 0x89ABCDEF),
    ([0x11AE, 0xCDEF, 0x89AB], .wrVCvrPan 5 0x89ABCDEF),
    ([0x11AF, 0xCDEF, 0x89AB], .wrVCvrSpeed 5 0x89ABCDEF),
    ([0x11B0, 0xCDEF, 0x89AB], .wrVCvrPitch 5 0x89ABCDEF),
    ([0x11B1, 0xCDEF, 0x89AB], .wrVBufBase 5 0x89ABCDEF),
    ([0x11B2, 0xCDEF, 0x89AB], .wrVBufFrames 5 0x89ABCDEF),
    ([0x11B3, 0xCDEF, 0x89AB], .wrVBufChannels 5 0x89ABCDEF)] = true := by decide

/-- A reserved address, as a write and as a read (R91, R295), and the last address before and after a range of
10_state.md R66. -/
theorem test_decode_reserved : decodesAll [
    ([0x1200, 0xCDEF, 0x89AB], .reservedAccess true 0x200 0x89ABCDEF),
    ([0x0FFF], .reservedAccess false 0xFFF 0),
    ([0x0002], .reservedAccess false 0x002 0),
    ([0x000F], .reservedAccess false 0x00F 0),
    ([0x0010], .rdEncCtrl),
    ([0x01F4], .reservedAccess false 0x1F4 0),
    ([0x01F3], .rdVBufChannels 7)] = true := by decide

/-- Only a sequence without a whole event is rejected, by name. -/
theorem test_decode_rejects :
    decode [] = .reject .noHeader ∧ decode [0x1000] = .reject .noDataWord ∧
      decode [0x1000, 1] = .reject .noDataWord := by decide

/-- Bits of the table's numbering: header in bits 15..0, data word in bits 47..16. -/
theorem test_table_word :
    decodeTableWord 16 0x1167 = some (.wrVLevel 3 0) ∧ decodeTableWord 48 0x000001F41167 = some (.wrVLevel 3 500) ∧
      decodeTableWord 16 0x8000 = some .reset := by decide

/-! ## Well-formedness: ill-formed terms are refused -/

theorem test_wf_refuses_named_address : WellFormed (.reservedAccess true 0x000 0) = false := by decide
theorem test_wf_refuses_voice_register : WellFormed (.reservedAccess false 0x113 0) = false := by decide
theorem test_wf_refuses_read_with_data : WellFormed (.reservedAccess false 0x200 1) = false := by decide

/-! ## Encoder (vectors E1 to E17) -/

theorem test_tick_primes : after (exec (.tick false false false) base)
    (fun t => t.enc.primed && t.enc.hist == 0 && t.enc.delta == 0 && t.enc.presc == 1) = true := by decide
theorem test_tick_counts_up : after (exec (.tick false true false) (withEnc primed))
    (fun t => t.enc.delta == 1 && t.enc.accel == 25 && t.enc.hist == 1) = true := by decide
theorem test_tick_counts_down : after (exec (.tick true false false) (withEnc primed))
    (fun t => t.enc.delta == -1 && t.enc.hist == 3) = true := by decide
theorem test_tick_delta_wraps : after (exec (.tick false true false) (withEnc { primed with delta := 32767 }))
    (fun t => t.enc.delta == -32768) = true := by decide
theorem test_tickFail_reuses_levels :
    after (exec .tickFail (withEnc { primed with hist := 3, rawA := true, presc := 1 }))
      (fun t => t.enc.hist == 3 && t.enc.delta == 0 && t.enc.presc == 0) = true := by decide
/-- E5: the table decoder skips the two-pin jump and then counts +1 where the two-bit one counts −1. -/
theorem test_table_jump_then_step :
    after (execAll [.wrEncCtrl 0x11, .tick false false false, .tick true true false, .tick true false false] base)
      (fun t => t.enc.hist == 14 && t.enc.delta == 1) = true := by decide
theorem test_encValue_keeps_residue :
    after (exec .rdEncValue (withEnc { primed with steps := .four, delta := 5 }))
      (fun t => t.responses == [1] && t.enc.delta == 1) = true := by decide
theorem test_encValue_accelerated :
    after (exec .rdEncValue (withEnc { primed with accelEn := true, accel := 3072, delta := -2 }))
      (fun t => t.responses == [0xFFFFFFF3]) = true := by decide
theorem test_encButton_clears : after (exec .rdEncButton (withEnc { primed with button := .clicked }))
    (fun t => t.responses == [4] && t.enc.button == .opened) = true := by decide
theorem test_encButton_keeps_held : after (exec .rdEncButton (withEnc { primed with button := .held }))
    (fun t => t.responses == [2] && t.enc.button == .held) = true := by decide
/-- E17: 0x72 after a first tick at levels 1 1 0. -/
theorem test_encHist : after (execAll [.tick true true false, .rdEncHist] base) (fun t => t.responses == [0x72]) = true := by
  decide
theorem test_encDelta_signed : after (exec .rdEncDelta (withEnc { primed with delta := -32768 }))
    (fun t => t.responses == [0xFFFF8000]) = true := by decide

/-! ## Triggers (vectors T1 to T6) -/

/-- T1 for the second of two callbacks: the edge. -/
theorem test_cb_edge : after (exec (.cb 0x01) { base with trig := { base.trig with cnt := base.trig.cnt.set 0 1 } })
    (fun t => t.trig.cnt.get 0 == 2 && t.trig.rise == 0x01 && t.trig.released == 0xFE && t.rBusy) = true := by decide
theorem test_cb_held : after (execAll [.cb 0x01, .cb 0x01] base)
    (fun t => t.trig.cnt.get 0 == 1 && t.held == [⟨0x01, false⟩]) = true := by decide
theorem test_cbFail_reuses_levels : after (exec .cbFail { base with trig := { base.trig with raw := 0x03 } })
    (fun t => t.trig.raw == 0x03 && t.trig.cnt.get 1 == 1 && t.trig.cnt.get 2 == 0) = true := by decide

/-! ## MIDI (vectors M1 to M14) -/

/-- M17: a Note-On for a voice in reverse, one octave up. -/
theorem test_noteOn_reverse :
    after (execAll [.midiData 72, .midiData 90]
        ((midiState ⟨.ch1, 0x92, 0, 0⟩).setVoice 0
          { voice .silent with midiMode := .pitched, midiChannel := 3, speed := -1000 }))
      (fun t => (t.voices.get 0).midiNote == 72 && (t.voices.get 0).phase == 0x3F800000 &&
        (t.voices.get 0).state == .playing) = true := by decide +kernel
/-- M14: a Note-Off compares no note. -/
theorem test_noteOff : after (execAll [.midiNoteOffStatus 2, .midiData 10, .midiData 0]
      ((midiState Midi.reset).setVoice 0 { voice .playing with midiMode := .pitched, midiChannel := 3 }))
    (fun t => (t.voices.get 0).state == .silent) = true := by decide
theorem test_midi_pstate : after (execAll [.midiNoteOnStatus 3, .midiData 60, .rdMidiPstate] base)
    (fun t => t.responses == [0x003C9302]) = true := by decide
theorem test_midi_one_data_byte : after (execAll [.midiProgramChangeStatus 3, .midiData 5, .midiData 7, .rdMidiPstate] base)
    (fun t => t.responses == [0x0000C301]) = true := by decide
theorem test_midi_ignored_pairs : after (execAll [.midiControlChangeStatus 0, .midiData 7, .midiData 100,
      .midiPitchBendStatus 0, .midiData 0, .midiData 64, .rdMidiPstate] base)
    (fun t => t.responses == [0x0000E001]) = true := by decide
theorem test_midi_pressures : after (execAll [.midiPolyPressureStatus 0, .midiData 1, .midiData 2,
      .midiChannelPressureStatus 4, .midiData 3, .rdMidiPstate] base)
    (fun t => t.responses == [0x0000D401]) = true := by decide
theorem test_midi_system_cancels :
    after (execAll [.midiNoteOnStatus 0, .midiData 60, .midiSystemF8FB 0, .midiData 100, .rdMidiPstate] base)
      (fun t => t.responses == [0]) = true := by decide
theorem test_midi_other_system_cancels : [Instr.midiSystemF0F7 0, .midiSystemFCFD 1, .midiSystemFE].all
    (fun i => after (exec i (midiState ⟨.ch2, 0x92, 60, 0⟩)) (fun t => t.midi == Midi.reset)) = true := by decide
/-- M4. -/
theorem test_meta_payload : after (execAll [.midiMetaStart, .midiData 0, .midiData 0, .midiData 2, .midiData 0x48,
      .midiData 0x69] base)
    (fun t => t.diag == [.byte 0x48, .byte 0x69, .done] && t.midi == Midi.reset) = true := by decide

/-! ## Frames (vectors X1, X9, X14) -/

/-- X1, frame 1. -/
theorem test_frame_playing : after (frameStep (rendering .playing))
    (fun t => t.audio == [⟨0x3F000000, 0x3F000000⟩] && (t.voices.get 0).phase == 0x3E800000 && t.rFrame == 1) = true := by
  decide +kernel
/-- X1, frame 4: the wrap silences a Triggered voice. -/
theorem test_frame_wraps :
    after (frameStep ((rendering .playing).setVoice 0 { voice .playing with phase := 0x3F400000 }))
      (fun t => t.audio == [⟨0, 0⟩] && (t.voices.get 0).phase == 0 && (t.voices.get 0).state == .silent) = true := by
  decide +kernel
/-- X2: a lookup between frames. -/
theorem test_lookup_interpolates :
    (match lookup (writeWord (ready .playing).mem 2 0x40400000) 0 0 0 (voice .playing) 0x3EC00000 0x3E800000 with
      | .ok x => x == 0x40000000
      | .error _ => false) = true := by decide +kernel
/-- X6: Wrap of 1.25, −0.25, −2^−24, −2^−25. -/
theorem test_wrap : [0x3FA00000, 0xBE800000, 0xB3800000, 0xB3000000].map wrapPhase =
    [0x3E800000, 0x3F400000, 0x3F7FFFFF, 0x00000000] := by decide +kernel
/-- 20_memory.md R75 (a): a Playing voice without memory is stuck. -/
theorem test_frame_without_memory : faults (frameStep { rendering .playing with mem := [] }) (.noSampleMemory 1) = true := by
  decide +kernel
/-- V1, V2, V3 at c = 0.3. -/
theorem test_cv_fields : cvLevel 0 0x3E99999A = 300 ∧ cvPan 0 0x3E99999A = -400 ∧ cvSpeed params 0 0x3E99999A = 600 := by
  decide +kernel
/-- V4: two octaves down to three octaves up. -/
theorem test_cv_pitch : cvPitch 0 0x00000000 = 0x3E800000 ∧ cvPitch 0 0x3F800000 = 0x41000000 := by decide +kernel

/-! ## Host accesses (vectors H1 to H15, Z1) -/

theorem test_wrVState_unbound : after (exec (.wrVState 0 1) base) (fun t => t.err == 1) = true := by decide
theorem test_wrVState_bound : after (exec (.wrVState 0 1) (ready .suspended))
    (fun t => t.err == 0 && (t.voices.get 0).state == .playing) = true := by decide
theorem test_wrVLevel_frozen : after (exec (.wrVLevel 0 500) base)
    (fun t => t.err == 4 && (t.voices.get 0).level == 1000) = true := by decide
theorem test_wrVMode_illegal : after (exec (.wrVMode 0 3) (ready .silent)) (fun t => t.err == 2) = true := by decide
theorem test_wrVBufBase_frozen : after (exec (.wrVBufBase 0 0x5000) (ready .silent)) (fun t => t.err == 4) = true := by
  decide
theorem test_wrErr_clears : after (exec (.wrErr 0x2) { base with err := 6 }) (fun t => t.err == 4) = true := by decide
/-- H6: a write and the read of it, for each clamped field. -/
theorem test_clamps : [(Instr.wrVSpeed 0 0x10000, Instr.rdVSpeed 0, (0x7FFF : Word)),
      (.wrVPan 0 0xFFFFFFFF, .rdVPan 0, 0xFFFFFFFF), (.wrVLevel 0 0xFFFFFFFF, .rdVLevel 0, 0x3E8),
      (.wrVSpeed 0 0x80000000, .rdVSpeed 0, 0xFFFF8000), (.wrVTranspose 0 200, .rdVTranspose 0, 0x7F),
      (.wrVTranspose 0 0xFFFFFF00, .rdVTranspose 0, 0xFFFFFF80), (.wrVMidich 0 0, .rdVMidich 0, 1),
      (.wrVMidich 0 99, .rdVMidich 0, 0x10), (.wrVMidinote 0 200, .rdVMidinote 0, 0x7F),
      (.wrVNativenote 0 128, .rdVNativenote 0, 0x7F), (.wrVCvrLevel 0 9, .rdVCvrLevel 0, 8),
      (.wrVCvrPan 0 3, .rdVCvrPan 0, 3), (.wrVCvrSpeed 0 9, .rdVCvrSpeed 0, 8), (.wrVCvrPitch 0 8, .rdVCvrPitch 0, 8),
      (.wrVMidimode 0 2, .rdVMidimode 0, 2), (.wrVMode 0 1, .rdVMode 0, 1)].all
    (fun x => after (execAll [x.1, x.2.1] (ready .silent)) (fun t => t.responses == [x.2.2] && t.err == 0)) = true := by
  decide
/-- H12: V.PITCHF takes 65536.0, −2.0 and −0.0, and not a NaN, ∞ or 65538.0. -/
theorem test_wrVPitchf : ([0x47800000, 0xC0000000, 0x80000000].all fun d => after (exec (.wrVPitchf 0 d) (ready .silent))
      (fun t => t.err == 0 && (t.voices.get 0).pitchFactor == d)) = true ∧
    ([0x7FC00000, 0x7F800000, 0x47800100].all fun d => after (exec (.wrVPitchf 0 d) (ready .silent))
      (fun t => t.err == 2 && (t.voices.get 0).pitchFactor == 0x3F800000)) = true := by decide
theorem test_buffer_writes : after (execAll [.wrVBufBase 0 0x1000, .wrVBufFrames 0 0xFFFFFFFF, .wrVBufChannels 0 256,
      .rdVBufBase 0, .rdVBufFrames 0, .rdVBufChannels 0] base)
    (fun t => t.responses == [0x1000, 0x1000000, 0xFF]) = true := by decide
/-- H8. -/
theorem test_wrCv : [0x3F000000, 0xBF800000, 0x7FC00000, 0x7F800000, 0x80000000, 0x00000001, 0x3F800001].map cvOperand =
    [0x3F000000, 0, 0, 0x3F800000, 0, 1, 0x3F800000] := by decide
theorem test_wrCv_reads_back : after (execAll [.wrCv 2 0x3F000000, .rdCv 2] base) (fun t => t.responses == [0x3F000000]) = true := by
  decide
/-- H9, H10. -/
theorem test_wrEncCtrl_illegal : after (execAll [.wrEncCtrl 0x0C, .rdEncCtrl] base)
    (fun t => t.err == 2 && t.responses == [0]) = true := by decide
theorem test_wrEncCtrl : after (execAll [.wrEncCtrl 0x0A, .rdEncCtrl] base)
    (fun t => t.err == 0 && t.responses == [0x0A]) = true := by decide
/-- H7, H15: reads after reset. -/
theorem test_reads_after_reset : [(Instr.rdEncCtrl, (0x10 : Word)), (.rdTrigReleased, 0xFF), (.rdVMidich 3, 4),
      (.rdVState 0, 2), (.reservedAccess false 0x200 0, 0), (.rdErr, 0), (.rdRstat, 0), (.rdEncAccel, 0),
      (.rdEncKeydown, 0), (.rdEncDclk, 0), (.rdEncPresc, 0), (.rdEncBtnpeek, 0), (.rdTrigRaw, 0), (.rdTrigRise, 0),
      (.rdTrigSteady, 0), (.rdTrigCnt 7, 0), (.rdMidiMeta, 0), (.rdVPhase 0, 0), (.rdVPhaseinc 0, 0),
      (.rdVPitchf 0, 0x3F800000)].all (fun x => after (exec x.1 base) (fun t => t.responses == [x.2])) = true := by decide
theorem test_rstat_busy : after (exec .rdRstat { base with rBusy := true, rFrame := 5 })
    (fun t => t.responses == [0x501]) = true := by decide
/-- Z1. -/
theorem test_reset_ends_callback : after (execAll [.cb 0x01, .reset] base) (fun t => decide (t = base)) = true := by decide
theorem test_fetch_runs_the_word : after (step (base.withFetchWord 48 0x000001F41167)) (fun t => t.err == 4) = true := by
  decide

/-! ## Witnesses: every statement with hypotheses is met by a concrete state -/

theorem witness_DecodeEncodeRoundTrip : WellFormed (.reservedAccess true 0xFFF 7) = true ∧
    WellFormed (.reservedAccess false 0x002 0) = true ∧ WellFormed (.wrVLevel 7 1) = true := by decide
theorem witness_DecodedIsWellFormed : decode [0x1FFF, 1, 2, 3] = .ok (.reservedAccess true 0xFFF 0x00020001) [3] ∧
    decode [0xFFFF] = .ok .reservedPort7 [] := by decide
theorem witness_IgnoredHeaderBits :
    (headerPort 0x2045 = 1 ∧ headerPort 0x2045 = headerPort 0x3F45 ∧
      (0x2045 : Half).extractLsb' 0 8 = (0x3F45 : Half).extractLsb' 0 8) ∧
    (headerPort 0x4005 = 2 ∧ headerPort 0x4005 = headerPort 0x5FF5 ∧
      (0x4005 : Half).extractLsb' 0 4 = (0x5FF5 : Half).extractLsb' 0 4) ∧
    (headerPort 0x4008 = headerPort 0x400F ∧ (0x4008 : Half).getLsbD 3 = true ∧
      (0x400F : Half).getLsbD 3 = true) ∧
    (headerPort 0x60FF = 3 ∧ headerPort 0x60FF = headerPort 0x7EFF ∧
      (0x60FF : Half).extractLsb' 0 9 = (0x7EFF : Half).extractLsb' 0 9) ∧
    (headerPort 0x6100 = headerPort 0x61FF ∧ (0x6100 : Half).getLsbD 8 = true ∧
      (0x61FF : Half).getLsbD 8 = true) ∧
    (4 ≤ (headerPort 0x8000).toNat ∧ headerPort 0x8000 = headerPort 0x9FFF) ∧
    (headerPort 0x0FFF = 0 ∧ (0x0FFF : Half).getLsbD 12 = false) ∧
    (headerPort 0x1FFF = 0 ∧ (0x1FFF : Half).getLsbD 12 = true) := by decide
theorem witness_ReservedPortsHaveNoEffect : 5 ≤ (headerPort 0xA000).toNat ∧ 5 ≤ (headerPort 0xFFFF).toNat ∧
    ({ base with inbox := [0xA000] } : State).turns = [] := by decide
theorem witness_StepRunsDecodedInstruction : decode ({ base with inbox := [0x8000] } : State).inbox = .ok .reset [] ∧
    ({ base with inbox := [0x8000] } : State).turns = [] ∧
    ({ base with inbox := [0x8000], turns := [.event] } : State).turns = .event :: [] := by decide
theorem witness_RenderTakesItsTurn : ({ rendering .silent with turns := [.render] } : State).rBusy = true ∧
    ({ base with turns := [.render], held := [⟨1, false⟩] } : State).held = ⟨1, false⟩ :: [] ∧
    Ready { base with turns := [.render] } ∧
    (base.turns = [] ∧ decode base.inbox = .reject .noHeader) ∧
    (({ rendering .silent with turns := [.event], inbox := [0x1000, 1] } : State).turns = .event :: [] ∧
      decode [0x1000, 1] = .reject .noDataWord) ∧
    (headerPort 0x1000 = 0 ∧ (0x1000 : Half).getLsbD 12 = true ∧ ([1] : List Half).length < 2) := by decide
theorem witness_PowerOnStateIsLegal : params.Legal := by decide
theorem witness_StepKeepsParameters : ∃ t, step { base with inbox := [0x8000] } = .next t := ⟨_, rfl⟩
theorem witness_TwoBitDecoderCounts : ∃ t1 t2 t3 t4 t5,
    exec (.tick true true false) base = .next t1 ∧
    exec (.tick false false false) (withEnc { primed with hist := 3 }) = .next t2 ∧
    exec (.tick true false false) (withEnc primed) = .next t3 ∧
    exec (.tick false false false) (withEnc primed) = .next t4 ∧
    exec (.tick true true false) (withEnc primed) = .next t5 ∧
    base.enc.strategy = false ∧ base.enc.primed = false ∧ primed.strategy = false ∧ primed.primed = true :=
  ⟨_, _, _, _, _, rfl, rfl, rfl, rfl, rfl, rfl, rfl, rfl, rfl⟩
theorem witness_TableDecoderCounts : ∃ t1 t2 t3,
    exec (.tick true true false) (withEnc { Encoder.reset with strategy := true }) = .next t1 ∧
    exec (.tick false false false) (withEnc { primed with strategy := true, hist := 2 }) = .next t2 ∧
    exec (.tick true false false) (withEnc { primed with strategy := true }) = .next t3 := ⟨_, _, _, rfl, rfl, rfl⟩
/-- The level at its top: a tick without a step, and one with a step. -/
theorem witness_AccelerationFollowsTicks : params.Legal ∧
    after (exec (.tick false false false) (withEnc { primed with accel := 3072 }))
      (fun t => t.enc.delta == 0 && t.enc.accel == 3070) = true ∧
    after (exec (.tick false true false) (withEnc { primed with accel := 3072 }))
      (fun t => t.enc.delta == 1 && t.enc.accel == 3072) = true := by decide
/-- Below the interval, at the interval with the button down, and at the interval with the button up. -/
theorem witness_ButtonCheckFollowsTheRule : params.Legal ∧
    after (exec (.tick false false true) (withEnc primed)) (fun t => t.enc.presc == 1) = true ∧
    after (exec (.tick false false true) (withEnc { primed with presc := 1, keyDown := 3 }))
      (fun t => t.enc.presc == 0 && t.enc.keyDown == 4 && t.enc.button == .held) = true ∧
    after (exec (.tick false false false) (withEnc { primed with presc := 1, keyDown := 1, dclk := 1 }))
      (fun t => t.enc.button == .doubleClicked && t.enc.dclk == 0) = true ∧
    after (exec (.tick false false false) (withEnc { primed with presc := 1, keyDown := 1, dclkEn := false }))
      (fun t => t.enc.button == .clicked && t.enc.dclk == 0) = true := by decide
/-- A press of HOLD_TICKS checks, and one of HOLD_TICKS + 1 (vector E12). -/
theorem witness_HeldOncePerPress : params.Legal ∧ primed.keyDown = 0 ∧ primed.dclk = 0 ∧ 3 ≤ params.holdTicks ∧
    params.holdTicks < 4 ∧ (buttonChecks params (List.replicate 4 true) primed).button = .held := by decide
/-- The longest short press, and two releases DOUBLECLICK_TICKS − 1 apart (vectors E10, E11). -/
theorem witness_ShortPressesGiveClicks : params.Legal ∧ primed.dclkEn = true ∧ primed.button ≠ .held ∧
    3 ≤ params.holdTicks ∧ 1 + 1 + 1 ≤ params.doubleClickTicks - 1 ∧
    (buttonChecks params [true, true, true, false, false, false, false] primed).button = .clicked ∧
    (buttonChecks params [true, true, true, false, false, true, false] primed).button = .doubleClicked := by decide
theorem witness_StrategiesAgreeOnCleanTicks :
    cleanLevels false false [(false, true), (true, true), (true, false), (false, false)] ∧
    primed.hist = grayCode false false ∧
    ({ primed with strategy := true } : Encoder).hist.extractLsb' 0 2 = rawCode false false :=
  ⟨⟨.inl rfl, .inr rfl, .inl rfl, .inr rfl, trivial⟩, rfl, rfl⟩
theorem witness_IdleTicksEmptyAcceleration : params.Legal ∧ ({ primed with accel := 3072 } : Encoder).accel.toNat ≤ 3072 ∧
    primed.hist = grayCode false false ∧
    ({ primed with strategy := true, hist := 15 } : Encoder).hist.extractLsb' 0 2 = rawCode true true := by decide
theorem witness_EncoderReadsRespond : ∃ (s : State) (bc sc : Nat), s.enc.button = .doubleClicked ∧ bc = 5 ∧
    s.enc.steps = .four ∧ sc = 2 := ⟨withEnc { primed with button := .doubleClicked, steps := .four }, 5, 2, rfl, rfl, rfl, rfl⟩
/-- The least delta, at four steps a notch: q = −8192. -/
theorem witness_EncValueReadsNotches : BitVec.toInt (-32768 : BitVec 16) / 4 = -8192 ∧
    after (exec .rdEncValue (withEnc { primed with steps := .four, delta := -32768 }))
      (fun t => t.responses == [0xFFFFFFFF] && t.enc.delta == 0) = true := by decide
theorem witness_CallbackDebounces : params.Legal ∧ Ready base ∧
    after (exec (.cb 0x80) { base with trig := { base.trig with cnt := base.trig.cnt.set 7 3 } })
      (fun t => t.trig.cnt.get 7 == 3 && t.trig.rise == 0 && t.trig.released == 0x7F) = true := by decide
theorem witness_BusyCallbackWaits : (rendering .silent).rBusy = true ∧
    ({ base with held := [⟨1, false⟩] } : State).held ≠ [] ∧ Ready base := by decide
/-- A run of the threshold's length, and shorter and longer ones. -/
theorem witness_OneEdgePerHeldInput : params.Legal ∧ Trigger.reset.cnt.get 7 = 0 ∧
    (debounceAll params [0x80] Trigger.reset).rise = 0 ∧ (debounceAll params [0x80, 0x80] Trigger.reset).rise = 0x80 ∧
    (debounceAll params [0x80, 0x80, 0x80] Trigger.reset).rise = 0 := by decide
/-- V6, V5: a Suspended voice, and routes 0, 1 and 8 of a voice that is not; and the ends of the CV range, whose floors
(0 and 1000, 0 and 2000) the maps give. -/
theorem witness_CallbackAppliesCv : Ready (ready .silent) ∧
    after (exec (.cb 0) (ready .suspended)) (fun t => t.voices.get 0 == voice .suspended) = true ∧
    after (exec (.cb 0) ({ (ready .silent).setVoice 0 { voice .silent with cvrLevel := 8, cvrSpeed := 1 } with
        cv := cvReset.set 7 0x3F000000 }))
      (fun t => (t.voices.get 0).level == 500 && (t.voices.get 0).speed == 0 && (t.voices.get 0).pan == 0) = true ∧
    (8 : BitVec 4).toNat = (7 : Fin 8).val + 1 ∧ (1 : BitVec 4).toNat = (0 : Fin 8).val + 1 ∧ params.Legal ∧
    ([(0x00000000, 0, -1000), (0x80000000, 0, -1000), (0x3F800000, 1000, 1000)].all
      fun x : F32 × BitVec 10 × BitVec 11 => decide (InUnit x.1) && cvLevel 0 x.1 == x.2.1 && cvPan 0 x.1 == x.2.2) = true := by
  decide +kernel
/-- Looped; Gated with a rise, released, and neither; Triggered with a rise and without. The sign of the increment at the
least speed and the pitch factors −65536.0 and 1.0, and at speed 0. -/
theorem witness_CallbackEvaluatesModes : Ready (ready .silent) ∧
    ([(PlayMode.looped, (0x00 : Byte), (0 : BitVec 16), PlayState.playing), (.gated, 0x01, 1, .playing),
      (.gated, 0x00, 0, .silent), (.gated, 0x01, 0, .silent), (.triggered, 0x01, 1, .playing),
      (.triggered, 0x00, 1, .silent)].all fun x =>
        after (exec (.cb x.2.1) ({ (ready .silent).setVoice 0 { voice .silent with mode := x.1 } with
            trig := { Trigger.reset with cnt := Trigger.reset.cnt.set 0 x.2.2.1 } }))
          (fun t => (t.voices.get 0).state == x.2.2.2)) = true ∧
    (voice .silent).bufFrames ≠ 0 ∧ (pitchOperand 0xC7800000).isSome = true ∧
    ([(-32768, 0xC7800000, false), (-32768, 0x3F800000, true), (0, 0xC7800000, false)].all
      fun x : BitVec 16 × F32 × Bool =>
        fLt (increment 0 { voice .silent with speed := x.1, pitchFactor := x.2.1 }) f0 == x.2.2) = true := by decide +kernel
theorem witness_PitchCvSpansFiveOctaves : InUnit 0x00000000 ∧ InUnit 0x80000000 ∧ InUnit 0x3F800000 := by decide
theorem witness_Exp2fMeetsD5 : exp2f (flt (-126)) = 0x00800000 ∧ exp2f (flt 127) = 0x7F000000 ∧
    fLe (flt (-126)) (flt (-126)) = true ∧ isFinite (flt (-126)) = true := by decide +kernel
theorem witness_DataBytesAreFramed :
    base.midi.pstate = .idle ∧ (0xC : Nat) = (0xCF : Byte).toNat / 16 ∧ (0xD : Nat) = (0xD0 : Byte).toNat / 16 ∧
    (0xB : Nat) = (0xBF : Byte).toNat / 16 ∧ (0xE : Nat) = (0xE0 : Byte).toNat / 16 := by decide
/-- A Pitched voice and a Percussion voice are hit, and a voice on another channel is not. -/
theorem witness_NoteOnRestartsVoices :
    (midiState ⟨.ch2, 0x92, 60, 0⟩).midi.status = (0x9 : BitVec 4) ++ (2 : BitVec 4) ∧
    base.cfg.vel0IsNoteOff = false ∧
    ([(MidiMode.pitched, (3 : BitVec 5), PlayState.playing), (.percussion, 3, .playing), (.pitched, 4, .silent),
      (.off, 3, .silent)].all fun x =>
        after (exec (.midiData 0) ((midiState ⟨.ch2, 0x92, 60, 0⟩).setVoice 0
            { voice .silent with midiMode := x.1, midiChannel := x.2.1 }))
          (fun t => (t.voices.get 0).state == x.2.2)) = true := by decide +kernel
/-- M15: velocity 0 where VEL0_IS_NOTE_OFF holds; and 0x8c. -/
theorem witness_NoteOffSilencesPitchedVoices :
    (midiState ⟨.ch2, 0x82, 60, 0⟩).midi.status = (0x8 : BitVec 4) ++ (2 : BitVec 4) ∧
    ([0x82, 0x92].all fun st => after (exec (.midiData 0)
        { (midiState ⟨.ch2, st, 60, 0⟩).setVoice 0 { voice .playing with midiMode := .pitched, midiChannel := 3 } with
          cfg := { params with vel0IsNoteOff := true } })
      (fun t => (t.voices.get 0).state == .silent)) = true := by decide
theorem witness_MetaPatternIsFramed : (midiState ⟨.meta1, 0, 0, 0⟩).midi.pstate = .meta1 ∧
    (midiState ⟨.meta2, 0, 0, 0⟩).midi.pstate = .meta2 ∧ (midiState ⟨.metaLen, 0, 0, 0⟩).midi.pstate = .metaLen ∧
    (midiState ⟨.metaPay, 0, 0, 1⟩).midi.metaLeft = 1 := by decide
theorem witness_MetaPayloadPassesThrough : (List.replicate 127 (0 : BitVec 7)).length ≤ 127 ∧
    ([] : List (BitVec 7)).length ≤ 127 := by rw [List.length_replicate]; decide
theorem witness_ParameterWritesClamp : ((ready .silent).voices.get 0).state ≠ .suspended := by decide
/-- The largest pitch factor, the next value, and a NaN; codes 2 and 3. -/
theorem witness_CheckedParameterWrites : ((ready .silent).voices.get 0).state ≠ .suspended ∧
    (isFinite 0xC7800000 = true ∧ magUnits 0xC7800000 ≤ 65536 * oneUnits) ∧
    ¬(isFinite 0x47800001 = true ∧ magUnits 0x47800001 ≤ 65536 * oneUnits) ∧
    ¬(isFinite 0x7FC00000 = true ∧ magUnits 0x7FC00000 ≤ 65536 * oneUnits) ∧ 2 < (3 : Word).toNat := by decide
theorem witness_FrozenWritesOnlySetErr : (base.voices.get 7).state = .suspended ∧
    ((ready .playing).voices.get 0).state ≠ .suspended := by decide
theorem witness_BufferWritesWhileSuspended : (base.voices.get 7).state = .suspended := by decide
/-- No buffer: no frames, or no channels. A buffer: codes 0, 1, 2, and code 3. -/
theorem witness_StateWriteFollowsTheRule : (base.voices.get 0).bufFrames = 0 ∧
    ((ready .suspended).voices.get 0).bufFrames ≠ 0 ∧ ((ready .suspended).voices.get 0).bufChannels ≠ 0 ∧
    ((base.setVoice 0 { voice .suspended with bufChannels := 0 }).voices.get 0).bufChannels = 0 ∧
    2 < (3 : Word).toNat ∧ (1 : Word).toNat < 2 := by decide
theorem witness_ReadOnlyWritesIgnored : Instr.wrVPhase 7 5 ∈ [Instr.wrRstat 5, .wrVPhase 7 5, .wrEncButton 5] := by decide
theorem witness_VoiceReadsRespond : voice .playing = (ready .playing).voices.get 0 := by decide
theorem witness_VoiceRouteAndBufferReadsRespond : Voice.reset 7 = base.voices.get 7 := by decide
theorem witness_StatusReadsRespond : (midiState ⟨.metaPay, 0, 0, 127⟩).midi.pstate = .metaPay := by decide
theorem witness_ReservedAddressesAreInert : ([0x002, 0x00F, 0x01A, 0x01F, 0x024, 0x027, 0x038, 0x03F, 0x042, 0x0FF, 0x114,
    0x1FF, 0x200, 0xFFF].all isReservedAddr) = true := by decide
theorem witness_ErrAndCvWrites : isNaN 0xFFC00000 = true ∧ fLe 0x80000000 0x00000000 = true ∧
    fLe 0x3F800000 0x3F800000 = true ∧ fLt 0x00000000 0x00000001 = true ∧ fLt 0x3F7FFFFF 0x3F800000 = true := by decide
/-- The first of two frames, and the last; and two Playing voices, whose terms 0.5 and 0.5 are summed (R215). -/
theorem witness_FrameEmitsOneOut : after (frameStep (rendering .playing)) (fun t => t.rBusy && t.rFrame == 1) = true ∧
    after (frameStep { rendering .playing with rFrame := 1 }) (fun t => !t.rBusy && t.rFrame == 0) = true ∧
    after (frameStep ((rendering .playing).setVoice 7 (voice .playing)))
      (fun t => t.audio == [⟨0x3F800000, 0x3F800000⟩]) = true := by
  decide +kernel
/-- A Suspended voice; a voice that wraps, Triggered and Looped; a voice that does not; a finite sum of each kind, with
its floor. -/
theorem witness_FrameAdvancesEveryVoice :
    after (frameStep (rendering .suspended)) (fun t => t.voices.get 0 == voice .suspended) = true ∧
    ([(PlayMode.triggered, (0x3F400000 : F32), PlayState.silent), (.looped, 0x3F400000, .playing),
      (.triggered, 0x00000000, .playing)].all fun x =>
        after (frameStep ((rendering .playing).setVoice 0 { voice .playing with mode := x.1, phase := x.2.1 }))
          (fun t => (t.voices.get 0).state == x.2.2)) = true ∧
    isFinite (fadd 0 0x3F400000 (increment 0 (voice .playing))) = true ∧
    fLe f1 (fadd 0 0x3F400000 (increment 0 (voice .playing))) = true ∧
    IsFloor (fadd 0 0x3F400000 (increment 0 (voice .playing))) 1 ∧
    fLe f1 (fadd 0 0x00000000 (increment 0 (voice .playing))) = false := by decide +kernel
theorem witness_SilentFrameEmitsZero : ∀ v : Fin 8, ((rendering .silent).voices.get v).state ≠ .playing := by decide
/-- A solo voice; and the lookup at position 1.5: forward frames 1 and 2, in reverse frames 2 and 1 (X2), and a word
without memory. -/
theorem witness_SoloVoiceFrameOutput : ((rendering .playing).voices.get 0).state = .playing ∧
    (∀ w : Fin 8, w ≠ 0 → ((rendering .playing).voices.get w).state ≠ .playing) ∧
    after (frameStep (rendering .playing)) (fun _ => true) = true ∧
    (fmul 0 0x3EC00000 (flt 4) = 0x3FC00000 ∧ isFinite 0x3FC00000 = true) ∧
    (fLe 0x00000000 0x3E800000 = true ∧ IsFloor 0x3FC00000 1 ∧ fsub 0 0x3FC00000 (flt 1) = fHalf) ∧
    (fLe 0x00000000 0xBE800000 = false ∧ IsCeil 0x3FC00000 2 ∧ fsub 0 (flt 2) 0x3FC00000 = fHalf) ∧
    (sampleRead (ready .playing).mem 0 0 0 (voice .playing) 1 matches .ok 0x3F800000) = true ∧
    (sampleRead (ready .playing).mem 0 0 1 (voice .playing) 2 matches .ok 0x40000000) = true ∧
    (sampleRead [] 0 0 0 (voice .playing) 1 matches .error (.noSampleMemory 1)) = true ∧
    (sampleRead (writeWord [] 1 0) 0 0 0 (voice .playing) 1 matches .ok 0) = true ∧
    (sampleRead (writeWord [] 1 0) 0 0 1 (voice .playing) 2 matches .error (.noSampleMemory 2)) = true := by decide +kernel
/-- Two turns of a two-frame callback, and one. -/
theorem witness_CallbackEmitsAllItsFrames : params.Legal ∧ (rendering .playing).rFrame = 0 ∧
    after (renderTurns 2 (rendering .playing)) (fun t => !t.rBusy && t.audio.length == 2) = true ∧
    after (renderTurns 1 (rendering .playing)) (fun t => t.rBusy) = true := by decide +kernel
theorem witness_CoveredFrameCompletes : ∀ v : Fin 8, ((rendering .playing).voices.get v).state = .playing →
    ((rendering .playing).voices.get v).bound = true ∧
      Covered (rendering .playing).mem ((rendering .playing).voices.get v) := by
  unfold Covered
  decide +kernel
/-- No memory, a raced word, a word that is not; and a write of a word with voice 0 Suspended and not, the second with
the value the word has, which is a race all the same (R81). -/
theorem witness_SampleReadsAndSwaps : readWord [] 4 = none ∧ readWord (ready .playing).mem 3 = some 0x40400000 ∧
    (3 : Word) = (voice .playing).bufBase + BitVec.ofNat 32 3 * BitVec.ofNat 32 (voice .playing).bufChannels.toNat ∧
    3 ∈ ((voice .playing).noteWrite 3).raced ∧ 3 ∉ (voice .playing).raced ∧
    ((ready .suspended).voices.get 0).state = .suspended ∧ ((ready .playing).voices.get 0).state ≠ .suspended ∧
    after (step { ready .suspended with turns := [.sample 3 0] }) (fun t => (t.voices.get 0).raced == []) = true ∧
    after (step { ready .playing with turns := [.sample 3 0x40400000] })
      (fun t => (t.voices.get 0).raced == [3] && readWord t.mem 3 == some 0x40400000) = true := by decide +kernel
theorem witness_StepKeepsRegistersLegal : base.cfg.Legal ∧ base.enc.Ok base.cfg ∧ base.trig.Ok base.cfg ∧ base.midi.Ok ∧
    (∀ v : Fin 8, (base.voices.get v).Ok) ∧ RenderOk base ∧ Memory.wf base.mem = true ∧
    after (step { base with inbox := [0x6001] }) (fun t => t.rBusy) = true :=
  ⟨by decide, by decide, by decide, by decide, by decide, by decide, by decide, by decide +kernel⟩
/-- The invariant at power-on, and at a frame step with a Playing voice that completes. -/
theorem witness_StepKeepsPhaseInUnit : base.FloatsOk ∧
    ((rendering .playing).FloatsOk ∧ (rendering .playing).cfg.Legal ∧
      (rendering .playing).enc.Ok params ∧ (rendering .playing).trig.Ok params ∧ (rendering .playing).midi.Ok ∧
      (∀ v : Fin 8, ((rendering .playing).voices.get v).Ok) ∧ RenderOk (rendering .playing) ∧
      Memory.wf (rendering .playing).mem = true) ∧
    ((rendering .playing).voices.get 0).state ≠ .suspended ∧
    after (frameStep (rendering .playing)) (fun t => fLt (t.voices.get 0).phase f1) = true :=
  ⟨⟨by decide, by decide⟩, ⟨⟨by decide, by decide⟩, by decide, by decide, by decide, by decide, by decide, by decide,
    by decide +kernel⟩, by decide, by decide +kernel⟩
/-- Each clause: into Suspended, out of it, and a write of a Suspended voice. -/
theorem witness_OnlyHostAndResetMoveSuspended :
    after (exec (.wrVState 0 2) (ready .playing)) (fun t => (t.voices.get 0).state == .suspended) = true ∧
    after (exec (.wrVState 0 0) (ready .suspended)) (fun t => (t.voices.get 0).state == .silent) = true ∧
    after (exec (.wrVBufBase 0 9) base) (fun t => (t.voices.get 0).bufBase == 9) = true ∧
    after (renderStep (rendering .suspended)) (fun t => (t.voices.get 0).state == .suspended) = true := by decide +kernel
/-- Each clause: an event that writes the part. -/
theorem witness_EachPartHasItsWriters : after (exec (.cb 1) base) (fun t => decide (t.trig ≠ base.trig)) = true ∧
    after (exec (.cb 1) base) (fun t => t.rBusy && !base.rBusy) = true ∧
    after (exec (.cb 1) (rendering .silent)) (fun t => decide (t.held ≠ [])) = true ∧
    after (exec (.wrCv 7 0x3F800000) base) (fun t => decide (t.cv ≠ base.cv)) = true ∧
    after (exec .tickFail base) (fun t => decide (t.enc ≠ base.enc)) = true ∧
    after (exec .midiMetaStart base) (fun t => decide (t.midi ≠ base.midi)) = true ∧
    after (exec (.midiData 0) (midiState ⟨.metaLen, 0, 0, 0⟩)) (fun t => decide (t.diag ≠ [])) = true ∧
    after (exec (.rdVState 7) base) (fun t => t.responses == [2]) = true ∧
    after (exec (.wrVPan 7 0) base) (fun t => t.err == 4) = true ∧
    after (exec .reset ((ready .silent).setVoice 0 { voice .silent with phase := 1, phaseIncrement := 1 }))
      (fun t => (t.voices.get 0).phase == 0 && (t.voices.get 0).phaseIncrement == 0) = true ∧
    after (exec (.wrVMidinote 0 5) (ready .silent)) (fun t => (t.voices.get 0).midiNote == 5) = true ∧
    after (exec (.wrVState 0 2) (ready .playing)) (fun t => (t.voices.get 0).state == .suspended) = true := by decide
/-- The same for the four fields of a voice that CV is routed to, for its other fields, and for a frame of RENDER. -/
theorem witness_EachPartHasItsWriters_voice :
    after (exec (.cb 0) ((ready .silent).setVoice 0 { voice .silent with cvrLevel := 8, cvrPan := 8, cvrSpeed := 8, cvrPitch := 8 }))
      (fun t => (t.voices.get 0).level == 0 && (t.voices.get 0).pan == -1000 && (t.voices.get 0).speed == 0 &&
        (t.voices.get 0).pitchFactor == 0x3E800000) = true ∧
    after (execAll [.wrVMode 0 1, .wrVTranspose 0 1, .wrVMidich 0 2, .wrVNativenote 0 1, .wrVMidimode 0 1, .wrVCvrLevel 0 1,
        .wrVCvrPan 0 1, .wrVCvrSpeed 0 1, .wrVCvrPitch 0 1] (ready .silent))
      (fun t => (t.voices.get 0) == { voice .silent with
        mode := .looped, transpose := 1, midiChannel := 2, nativeNote := 1, midiMode := .percussion, cvrLevel := 1,
        cvrPan := 1, cvrSpeed := 1, cvrPitch := 1 }) = true ∧
    after (renderStep (rendering .playing)) (fun t => (t.voices.get 0).phase == 0x3E800000) = true := by decide +kernel
/-- A step that faults. -/
theorem witness_OnlyMissingMemoryStopsAStep :
    faults (step { rendering .playing with mem := [], turns := [.render] }) (.noSampleMemory 1) = true := by decide +kernel

end Sys2Proof.Tests
end

/-! SUPPORT. What one event can do to the registers, said once: the inversion lemma of `exec`, from which the
invariants of 10_state.md R37 and R40 are derived. -/

namespace Sys2Proof

/-- What holds of every element, and of the new one, holds of every element after a write. -/
theorem Oct.forall_get_set {α : Type} {P : α → Prop} {o : Oct α} {i : Fin 8} {a : α} (h : ∀ j, P (o.get j))
    (ha : P a) (j : Fin 8) : P ((o.set i a).get j) := by
  rw [Oct.get_set]
  split
  · exact ha
  · exact h j

end Sys2Proof

namespace Sys2Proof.Machine

/-! ## The registers of two states -/

/-- The two states hold the same in every register but ERR, in sample memory and in the parameters. They may differ in
ERR, the queues, the streams and the model's own turns and draws, of which no invariant speaks. -/
structure SameRegisters (s t : State) : Prop where
  cfg : t.cfg = s.cfg
  voices : t.voices = s.voices
  enc : t.enc = s.enc
  trig : t.trig = s.trig
  cv : t.cv = s.cv
  midi : t.midi = s.midi
  rBusy : t.rBusy = s.rBusy
  rFrame : t.rFrame = s.rFrame
  mem : t.mem = s.mem

theorem SameRegisters.refl (s : State) : SameRegisters s s := ⟨rfl, rfl, rfl, rfl, rfl, rfl, rfl, rfl, rfl⟩

theorem SameRegisters.setErr (s : State) (b : BitVec 3) : SameRegisters s (s.setErr b) :=
  ⟨rfl, rfl, rfl, rfl, rfl, rfl, rfl, rfl, rfl⟩

theorem SameRegisters.clearErr (s : State) (d : Word) : SameRegisters s (s.clearErr d) :=
  ⟨rfl, rfl, rfl, rfl, rfl, rfl, rfl, rfl, rfl⟩

theorem SameRegisters.respond (s : State) (w : Word) : SameRegisters s (s.respond w) :=
  ⟨rfl, rfl, rfl, rfl, rfl, rfl, rfl, rfl, rfl⟩

theorem SameRegisters.hold (s : State) (l : List Callback) : SameRegisters s { s with held := l } :=
  ⟨rfl, rfl, rfl, rfl, rfl, rfl, rfl, rfl, rfl⟩

theorem SameRegisters.arrive (s : State) (ts : List Turn) (ws : List Half) :
    SameRegisters s { s with turns := ts, inbox := ws } :=
  ⟨rfl, rfl, rfl, rfl, rfl, rfl, rfl, rfl, rfl⟩

theorem SameRegisters.trans {s t u : State} (h : SameRegisters s t) (h' : SameRegisters t u) : SameRegisters s u where
  cfg := h'.cfg.trans h.cfg
  voices := h'.voices.trans h.voices
  enc := h'.enc.trans h.enc
  trig := h'.trig.trans h.trig
  cv := h'.cv.trans h.cv
  midi := h'.midi.trans h.midi
  rBusy := h'.rBusy.trans h.rBusy
  rFrame := h'.rFrame.trans h.rFrame
  mem := h'.mem.trans h.mem

theorem SameRegisters.registersOk {s t : State} (h : SameRegisters s t) (hs : s.RegistersOk) : t.RegistersOk := by
  obtain ⟨hcfg, hvoices, henc, htrig, -, hmidi, hbusy, hframe, hmem⟩ := h
  rw [State.RegistersOk, RenderOk, hcfg, hvoices, henc, htrig, hmidi, hbusy, hframe, hmem]
  exact hs

theorem SameRegisters.floatsOk {s t : State} (h : SameRegisters s t) (hs : s.FloatsOk) : t.FloatsOk := by
  rw [State.FloatsOk, h.cv, h.voices]
  exact hs

/-! ## What an event does -/

/-- What an accepted parameter write makes of the voice (45_host.md R251 to R264). -/
inductive ParamWrite (x : Voice) : Voice → Prop
  | mode (m : PlayMode) : ParamWrite x { x with mode := m }
  | speed (d : Word) : ParamWrite x { x with speed := speedOperand d }
  | pitchFactor (d : Word) (y : F32) (h : pitchOperand d = some y) : ParamWrite x { x with pitchFactor := y }
  | transpose (d : Word) : ParamWrite x { x with transpose := transposeOperand d }
  | level (d : Word) : ParamWrite x { x with level := levelOperand d }
  | pan (d : Word) : ParamWrite x { x with pan := panOperand d }
  | midiChannel (d : Word) : ParamWrite x { x with midiChannel := midiChannelOperand d }
  | midiNote (d : Word) : ParamWrite x { x with midiNote := noteOperand d }
  | nativeNote (d : Word) : ParamWrite x { x with nativeNote := noteOperand d }
  | midiMode (m : MidiMode) : ParamWrite x { x with midiMode := m }
  | cvrLevel (d : Word) : ParamWrite x { x with cvrLevel := routeOperand d }
  | cvrPan (d : Word) : ParamWrite x { x with cvrPan := routeOperand d }
  | cvrSpeed (d : Word) : ParamWrite x { x with cvrSpeed := routeOperand d }
  | cvrPitch (d : Word) : ParamWrite x { x with cvrPitch := routeOperand d }

/-- What an accepted buffer write makes of the voice (45_host.md R265 to R267). -/
inductive BufferWrite (x : Voice) : Voice → Prop
  | base (d : Word) : BufferWrite x { x with bufBase := d }
  | frames (d : Word) : BufferWrite x { x with bufFrames := bufFramesOperand d }
  | channels (d : Word) : BufferWrite x { x with bufChannels := bufChannelsOperand d }

/-- What an event makes of the encoder: a tick (40_encoder.md R120), the two reads that consume (R131, R132) and the
write of ENC_CTRL (45_host.md R241). -/
inductive EncoderMove (p : Params) (c : Encoder) : Encoder → Prop
  | tick (a b btn failed : Bool) : EncoderMove p c (tickEncoder p a b btn failed c)
  | readValue : EncoderMove p c { c with delta := c.delta &&& notchMask c.steps }
  | readButton : EncoderMove p c { c with button := if c.button = .held then .held else .opened }
  | writeCtrl (d : Word) : EncoderMove p c (writeEncCtrl d c)

/-- Everything an event can make of the registers of `s`. -/
inductive EventEffect (s : State) : State → Prop
  /-- No register of the invariants changes. -/
  | kept {t : State} (h : SameRegisters s t) : EventEffect s t
  | reset : EventEffect s s.resetRegisters
  /-- The encoder moves; a response or an ERR bit may come with it. -/
  | encoder {c : Encoder} {t : State} (hc : EncoderMove s.cfg s.enc c) (h : SameRegisters (s.setEnc c) t) :
      EventEffect s t
  | callback (levels : Byte) (failed : Bool) : EventEffect s (prologue levels failed s)
  | midi (b : Byte) : EventEffect s (midiByte b s)
  | cv (k : Fin 8) (d : Word) : EventEffect s (s.setCv k (cvOperand d))
  | param (v : Fin 8) {x : Voice} (hs : (s.voices.get v).state ≠ .suspended) (hx : ParamWrite (s.voices.get v) x) :
      EventEffect s (s.setVoice v x)
  | buffer (v : Fin 8) {x : Voice} (hs : (s.voices.get v).state = .suspended) (hx : BufferWrite (s.voices.get v) x) :
      EventEffect s (s.setVoice v x)
  | state (v : Fin 8) (st : PlayState) (hb : st ≠ .suspended → (s.voices.get v).bound = true) :
      EventEffect s (s.setVoice v ((s.voices.get v).withState st))

theorem acceptCallback_effect (levels : Byte) (failed : Bool) (s : State) :
    EventEffect s (acceptCallback levels failed s) := by
  obtain ⟨-, h⟩ | ⟨-, -, h⟩ := acceptCallback_cases levels failed s <;> rw [h]
  · exact .kept (.hold s _)
  · exact .callback levels failed

theorem execWrEncCtrl_effect (d : Word) (s : State) : ∃ t, execWrEncCtrl d s = .next t ∧ EventEffect s t := by
  cases h : notchStepsOf (d.extractLsb' 2 2) with
  | some n => exact ⟨_, by simp only [execWrEncCtrl, h], .encoder (.writeCtrl d) (.refl _)⟩
  | none => exact ⟨_, by simp only [execWrEncCtrl, h], .encoder (.writeCtrl d) (.setErr _ errIllegalValue)⟩

theorem writeParam_effect (v : Fin 8) {f : Voice → Option Voice} (s : State)
    (hf : ∀ x, f (s.voices.get v) = some x → ParamWrite (s.voices.get v) x) : EventEffect s (writeParam v f s) := by
  obtain ⟨-, h⟩ | ⟨-, -, h⟩ | ⟨x, hs, hx, h⟩ := writeParam_cases v f s <;> rw [h]
  · exact .kept (.setErr s _)
  · exact .kept (.setErr s _)
  · exact .param v hs (hf x hx)

/-- A parameter write of a value that is always accepted. -/
theorem writeParam_some_effect (v : Fin 8) {g : Voice → Voice} (s : State)
    (hg : ParamWrite (s.voices.get v) (g (s.voices.get v))) : EventEffect s (writeParam v (fun x => some (g x)) s) :=
  writeParam_effect v s fun _ hx => Option.some.inj hx ▸ hg

/-- A parameter write of an operand that may be ignored. -/
theorem writeParam_map_effect {α : Type} (v : Fin 8) {o : Option α} {g : Voice → α → Voice} (s : State)
    (hg : ∀ a, o = some a → ParamWrite (s.voices.get v) (g (s.voices.get v) a)) :
    EventEffect s (writeParam v (fun x => o.map (g x)) s) :=
  writeParam_effect v s fun _ hx => by
    obtain ⟨a, ha, rfl⟩ := Option.map_eq_some_iff.1 hx
    exact hg a ha

theorem writeBuffer_effect (v : Fin 8) {f : Voice → Voice} (s : State)
    (hf : BufferWrite (s.voices.get v) (f (s.voices.get v))) : EventEffect s (writeBuffer v f s) := by
  obtain ⟨hs, h⟩ | ⟨-, h⟩ := writeBuffer_cases v f s <;> rw [h]
  · exact .buffer v hs hf
  · exact .kept (.setErr s _)

theorem writeState_effect (v : Fin 8) (d : Word) (s : State) : EventEffect s (writeState v d s) := by
  obtain ⟨-, h⟩ | ⟨-, -, -, -, h⟩ | ⟨st, -, hb, h⟩ := writeState_cases v d s <;> rw [h]
  · exact .kept (.setErr s _)
  · exact .kept (.setErr s _)
  · exact .state v st hb

/-- Every event completes, with one of the effects above (60_exceptions.md R304). -/
theorem exec_effect (i : Instr) (s : State) : ∃ t, exec i s = .next t ∧ EventEffect s t :=
  match i with
  | .reset => ⟨_, rfl, .reset⟩
  | .tick a b btn => ⟨_, rfl, .encoder (.tick a b btn false) (.refl _)⟩
  | .tickFail => ⟨_, rfl, .encoder (.tick false false false true) (.refl _)⟩
  | .rdEncValue => ⟨_, rfl, .encoder .readValue (.respond _ _)⟩
  | .rdEncButton => ⟨_, rfl, .encoder .readButton (.respond _ _)⟩
  | .wrEncCtrl d => execWrEncCtrl_effect d s
  | .cb t => ⟨_, rfl, acceptCallback_effect t false s⟩
  | .cbFail => ⟨_, rfl, acceptCallback_effect 0 true s⟩
  | .midiData _ | .midiNoteOffStatus _ | .midiNoteOnStatus _ | .midiPolyPressureStatus _ | .midiControlChangeStatus _
  | .midiProgramChangeStatus _ | .midiChannelPressureStatus _ | .midiPitchBendStatus _ | .midiSystemF0F7 _
  | .midiSystemF8FB _ | .midiSystemFCFD _ | .midiSystemFE | .midiMetaStart => ⟨_, rfl, .midi _⟩
  | .wrErr d => ⟨_, rfl, .kept (.clearErr s d)⟩
  | .reservedPort5 | .reservedPort6 | .reservedPort7 | .wrRstat _ | .wrEncValue _ | .wrEncButton _ | .wrEncDelta _
  | .wrEncAccel _ | .wrEncHist _ | .wrEncKeydown _ | .wrEncDclk _ | .wrEncPresc _ | .wrEncBtnpeek _ | .wrTrigRaw _
  | .wrTrigRise _ | .wrTrigReleased _ | .wrTrigSteady _ | .wrTrigCnt _ _ | .wrMidiPstate _ | .wrMidiMeta _
  | .wrVPhase _ _ | .wrVPhaseinc _ _ | .reservedAccess true _ _ => ⟨_, rfl, .kept (.refl s)⟩
  | .rdErr | .rdRstat | .rdEncCtrl | .rdEncDelta | .rdEncAccel | .rdEncHist | .rdEncKeydown | .rdEncDclk | .rdEncPresc
  | .rdEncBtnpeek | .rdTrigRaw | .rdTrigRise | .rdTrigReleased | .rdTrigSteady | .rdTrigCnt _ | .rdCv _ | .rdMidiPstate
  | .rdMidiMeta | .rdVState _ | .rdVMode _ | .rdVPhase _ | .rdVPhaseinc _ | .rdVSpeed _ | .rdVPitchf _
  | .rdVTranspose _ | .rdVLevel _ | .rdVPan _ | .rdVMidich _ | .rdVMidinote _ | .rdVNativenote _ | .rdVMidimode _
  | .rdVCvrLevel _ | .rdVCvrPan _ | .rdVCvrSpeed _ | .rdVCvrPitch _ | .rdVBufBase _ | .rdVBufFrames _
  | .rdVBufChannels _ | .reservedAccess false _ _ => ⟨_, rfl, .kept (.respond s _)⟩
  | .wrCv k d => ⟨_, rfl, .cv k d⟩
  | .wrVState v d => ⟨_, rfl, writeState_effect v d s⟩
  | .wrVMode v _ => ⟨_, rfl, writeParam_map_effect v s fun m _ => .mode m⟩
  | .wrVSpeed v d => ⟨_, rfl, writeParam_some_effect v s (.speed d)⟩
  | .wrVPitchf v d => ⟨_, rfl, writeParam_map_effect v s fun y hy => .pitchFactor d y hy⟩
  | .wrVTranspose v d => ⟨_, rfl, writeParam_some_effect v s (.transpose d)⟩
  | .wrVLevel v d => ⟨_, rfl, writeParam_some_effect v s (.level d)⟩
  | .wrVPan v d => ⟨_, rfl, writeParam_some_effect v s (.pan d)⟩
  | .wrVMidich v d => ⟨_, rfl, writeParam_some_effect v s (.midiChannel d)⟩
  | .wrVMidinote v d => ⟨_, rfl, writeParam_some_effect v s (.midiNote d)⟩
  | .wrVNativenote v d => ⟨_, rfl, writeParam_some_effect v s (.nativeNote d)⟩
  | .wrVMidimode v _ => ⟨_, rfl, writeParam_map_effect v s fun m _ => .midiMode m⟩
  | .wrVCvrLevel v d => ⟨_, rfl, writeParam_some_effect v s (.cvrLevel d)⟩
  | .wrVCvrPan v d => ⟨_, rfl, writeParam_some_effect v s (.cvrPan d)⟩
  | .wrVCvrSpeed v d => ⟨_, rfl, writeParam_some_effect v s (.cvrSpeed d)⟩
  | .wrVCvrPitch v d => ⟨_, rfl, writeParam_some_effect v s (.cvrPitch d)⟩
  | .wrVBufBase v d => ⟨_, rfl, writeBuffer_effect v s (.base d)⟩
  | .wrVBufFrames v d => ⟨_, rfl, writeBuffer_effect v s (.frames d)⟩
  | .wrVBufChannels v d => ⟨_, rfl, writeBuffer_effect v s (.channels d)⟩

/-! ## What a step does -/

/-- Everything a step can make of the registers of `s`: an event, a frame of RENDER, or a write of sample memory by its
owner. -/
inductive StepEffect (s : State) : State → Prop
  | event {t : State} (h : EventEffect s t) : StepEffect s t
  | frame {t : State} (hb : s.rBusy = true) (h : frameStep s = .next t) : StepEffect s t
  | sample (a d : Word) : StepEffect s (s.storeSample a d)

theorem renderStep_effect {s t : State} (h : renderStep s = .next t) : ∃ s', SameRegisters s s' ∧ StepEffect s' t := by
  obtain ⟨hb, he⟩ | ⟨c, rest, -, -, he⟩ | ⟨-, -, he⟩ := renderStep_cases s <;> rw [he] at h
  · exact ⟨s, .refl s, .frame hb h⟩
  · cases h
    exact ⟨_, .hold s rest, .event (.callback c.levels c.failed)⟩
  · cases h
    exact ⟨_, .refl _, .event (.kept (.refl _))⟩

theorem step_effect {s t : State} (h : step s = .next t) : ∃ s', SameRegisters s s' ∧ StepEffect s' t := by
  obtain ⟨ts, i, rest, -, -, he⟩ | ⟨ts, -, -, -, he⟩ | ⟨ts, -, he⟩ | ⟨ts, a, d, -, he⟩ := step_cases s <;> rw [he] at h
  · obtain ⟨t', ht', heff⟩ := exec_effect i { s with turns := ts, inbox := rest }
    cases ht'.symm.trans h
    exact ⟨_, .arrive s ts rest, .event heff⟩
  · obtain ⟨s', hs', heff⟩ := renderStep_effect h
    exact ⟨s', (SameRegisters.arrive s ts s.inbox).trans hs', heff⟩
  · obtain ⟨s', hs', heff⟩ := renderStep_effect h
    exact ⟨s', (SameRegisters.arrive s ts s.inbox).trans hs', heff⟩
  · cases h
    exact ⟨_, .arrive s ts s.inbox, .sample a d⟩

end Sys2Proof.Machine

/-! SUPPORT. The invariant of the whole-number registers (10_state.md R37 (a), (c), (d), R40; 40_encoder.md R127), kept
by each part of the block. -/

namespace Sys2Proof.Machine

/-! ## Operands -/

theorem clampInt_bounds (v : Int) {lo hi : Int} (h : lo ≤ hi) : lo ≤ clampInt v lo hi ∧ clampInt v lo hi ≤ hi := by
  unfold clampInt
  omega

/-- An integer in 0..1000 fits the level field. -/
theorem toNat_ofInt_level (v : Int) : (BitVec.ofInt 10 (clampInt v 0 1000)).toNat ≤ 1000 := by
  have := clampInt_bounds v (show (0 : Int) ≤ 1000 by decide)
  rw [BitVec.toNat_ofInt]
  omega

/-- An integer in −1000..1000 fits the pan field. -/
theorem toInt_ofInt_pan (v : Int) :
    -1000 ≤ (BitVec.ofInt 11 (clampInt v (-1000) 1000)).toInt ∧
      (BitVec.ofInt 11 (clampInt v (-1000) 1000)).toInt ≤ 1000 := by
  have := clampInt_bounds v (show (-1000 : Int) ≤ 1000 by decide)
  rw [BitVec.toInt_ofInt, Int.bmod_eq_of_le (by omega) (by omega)]
  exact this

/-- A clamped unsigned operand lies in its range, where the range fits the field. -/
theorem unsignedOperand_bounds {n lo hi : Nat} (d : Word) (h : lo ≤ hi) (hn : hi < 2 ^ n) :
    lo ≤ (unsignedOperand n lo hi d).toNat ∧ (unsignedOperand n lo hi d).toNat ≤ hi := by
  unfold unsignedOperand
  rw [BitVec.toNat_ofNat, Nat.mod_eq_of_lt (by omega)]
  omega

/-! ## The encoder -/

theorem grayCode_lt (a b : Bool) : (grayCode a b).toNat < 4 := by
  revert a b
  decide

theorem Encoder.Ok.reset {p : Params} (hp : p.Legal) : Encoder.reset.Ok p := by
  obtain ⟨-, -, -, -, ⟨hinterval, -⟩, -⟩ := hp
  exact ⟨Nat.zero_le _, Nat.zero_le _, Nat.zero_le _, hinterval, nofun, nofun⟩

theorem Encoder.Ok.pinSample {p : Params} {c : Encoder} (h : c.Ok p) (a b btn failed : Bool) :
    (Machine.pinSample a b btn failed c).Ok p := by
  unfold Machine.pinSample
  split
  · exact h
  · exact h

/-- The decay stops at 0: what underflows has bit 15 set (40_encoder.md R124). -/
theorem Encoder.Ok.accelDecay {p : Params} {c : Encoder} (hp : p.Legal) (h : c.Ok p) :
    (Machine.accelDecay p c).Ok p := by
  obtain ⟨-, htop, -, ⟨-, hdec⟩, -⟩ := hp
  obtain ⟨haccel, hrest⟩ := h
  refine ⟨?_, hrest⟩
  unfold Machine.accelDecay
  dsimp only
  split
  · simp
  · next hm =>
    simp only [BitVec.msb_eq_decide, BitVec.toNat_sub, BitVec.toNat_ofNat, decide_eq_true_eq] at hm
    rw [BitVec.toNat_sub, BitVec.toNat_ofNat]
    omega

theorem Encoder.Ok.accelBump {p : Params} {c : Encoder} (hp : p.Legal) (h : c.Ok p) :
    (Machine.accelBump p c).Ok p := by
  obtain ⟨-, htop, -⟩ := hp
  obtain ⟨-, hrest⟩ := h
  refine ⟨?_, hrest⟩
  simp only [Machine.accelBump, BitVec.toNat_ofNat]
  omega

/-- The two-bit decode loads a history below 4 (40_encoder.md R122). -/
theorem Encoder.Ok.decode2 {p : Params} {c : Encoder} (h : c.Ok p) (a b : Bool) : (Machine.decode2 a b c).1.Ok p := by
  obtain ⟨haccel, hkey, hdclk, hpresc, hbtn, hhist⟩ := h
  unfold Machine.decode2
  dsimp only
  split
  · exact ⟨haccel, hkey, hdclk, hpresc, hbtn, fun _ _ => grayCode_lt a b⟩
  · split
    · exact ⟨haccel, hkey, hdclk, hpresc, hbtn, fun _ _ => grayCode_lt a b⟩
    · exact ⟨haccel, hkey, hdclk, hpresc, hbtn, hhist⟩

/-- The table decode loads any history; it runs only under its own strategy (40_encoder.md R123). -/
theorem Encoder.Ok.decode16 {p : Params} {c : Encoder} (h : c.Ok p) (hs : c.strategy = true) (a b : Bool) :
    (Machine.decode16 a b c).1.Ok p := by
  obtain ⟨haccel, hkey, hdclk, hpresc, hbtn, -⟩ := h
  have hne : c.strategy = false → ∀ {P : Prop}, P := fun hf => absurd (hs.symm.trans hf) (by decide)
  unfold Machine.decode16
  dsimp only
  split
  · exact ⟨haccel, hkey, hdclk, hpresc, hbtn, fun hf => hne hf⟩
  · split <;> exact ⟨haccel, hkey, hdclk, hpresc, hbtn, fun hf => hne hf⟩

theorem Encoder.Ok.decodePins {p : Params} {c : Encoder} (h : c.Ok p) : (Machine.decodePins c).1.Ok p := by
  unfold Machine.decodePins
  split
  · next hs => exact h.decode16 hs _ _
  · exact h.decode2 _ _

/-- A button check keeps the counters in their ranges and never gives Closed (40_encoder.md R125). -/
theorem Encoder.Ok.buttonDown {p : Params} {c : Encoder} (hp : p.Legal) (h : c.Ok p) :
    (Machine.buttonDown p c).Ok p := by
  obtain ⟨-, -, -, -, -, hhold, -⟩ := hp
  obtain ⟨haccel, -, hdclk, hpresc, hbtn, hhist⟩ := h
  refine ⟨haccel, ?_, hdclk, hpresc, ?_, hhist⟩
  · simp only [Machine.buttonDown, BitVec.toNat_ofNat]
    omega
  · simp only [Machine.buttonDown]
    split
    · decide
    · exact hbtn

theorem Encoder.Ok.buttonUp {p : Params} {c : Encoder} (hp : p.Legal) (h : c.Ok p) :
    (Machine.buttonUp p c).Ok p := by
  obtain ⟨-, -, -, -, -, -, ⟨hclick, hclick'⟩, -⟩ := hp
  obtain ⟨haccel, -, hdclk, hpresc, hbtn, hhist⟩ := h
  unfold Machine.buttonUp
  dsimp only
  split
  · exact ⟨haccel, Nat.zero_le _, hdclk, hpresc, hbtn, hhist⟩
  · split
    · exact ⟨haccel, Nat.zero_le _, Nat.zero_le _, hpresc, nofun, hhist⟩
    · split
      · exact ⟨haccel, Nat.zero_le _, Nat.zero_le _, hpresc, nofun, hhist⟩
      · refine ⟨haccel, Nat.zero_le _, ?_, hpresc, hbtn, hhist⟩
        dsimp only
        split
        · rw [BitVec.toNat_ofNat]
          omega
        · exact hclick

theorem Encoder.Ok.windowCountdown {p : Params} {c : Encoder} (h : c.Ok p) : (Machine.windowCountdown c).Ok p := by
  unfold Machine.windowCountdown
  split
  · exact h
  · next h0 =>
    obtain ⟨haccel, hkey, hdclk, hpresc, hbtn, hhist⟩ := h
    refine ⟨haccel, hkey, ?_, hpresc, ?_, hhist⟩
    · bv_omega
    · dsimp only
      split
      · decide
      · exact hbtn

theorem Encoder.Ok.buttonCheck {p : Params} {c : Encoder} (hp : p.Legal) (h : c.Ok p) :
    (Machine.buttonCheck p c).Ok p := by
  unfold Machine.buttonCheck
  split
  · exact (h.buttonDown hp).windowCountdown
  · exact (h.buttonUp hp).windowCountdown

theorem Encoder.Ok.prescale {p : Params} {c : Encoder} (hp : p.Legal) (h : c.Ok p) :
    (Machine.prescale p c).Ok p := by
  obtain ⟨haccel, hkey, hdclk, hpresc, hbtn, hhist⟩ := h
  have hint : 1 ≤ p.buttonCheckInterval ∧ p.buttonCheckInterval ≤ 65535 := by
    obtain ⟨-, -, -, -, hint, -⟩ := hp
    exact hint
  unfold Machine.prescale
  split
  · exact Encoder.Ok.buttonCheck hp ⟨haccel, hkey, hdclk, hint.1, hbtn, hhist⟩
  · refine ⟨haccel, hkey, hdclk, ?_, hbtn, hhist⟩
    dsimp only
    bv_omega

/-- A tick keeps the encoder's ranges (40_encoder.md R120, R127). -/
theorem Encoder.Ok.tick {p : Params} {c : Encoder} (hp : p.Legal) (h : c.Ok p) (a b btn failed : Bool) :
    (tickEncoder p a b btn failed c).Ok p := by
  have hd := ((h.pinSample a b btn failed).accelDecay hp).decodePins
  unfold tickEncoder
  dsimp only
  split
  · exact (hd.accelBump hp).prescale hp
  · exact hd.prescale hp

/-- A change of strategy drops the history; no other write of ENC_CTRL touches it (45_host.md R241). -/
theorem Encoder.Ok.writeCtrl {p : Params} {c : Encoder} (h : c.Ok p) (d : Word) : (writeEncCtrl d c).Ok p := by
  obtain ⟨haccel, hkey, hdclk, hpresc, hbtn, hhist⟩ := h
  refine ⟨haccel, hkey, hdclk, hpresc, hbtn, fun hs hprimed => ?_⟩
  simp only [writeEncCtrl] at hs hprimed
  split at hprimed
  · next he => exact hhist (he.symm.trans hs) hprimed
  · cases hprimed

theorem EncoderMove.ok {p : Params} {c c' : Encoder} (hm : EncoderMove p c c') (hp : p.Legal) (h : c.Ok p) :
    c'.Ok p := by
  cases hm with
  | tick a b btn failed => exact h.tick hp a b btn failed
  | readValue => exact h
  | readButton =>
    obtain ⟨haccel, hkey, hdclk, hpresc, -, hhist⟩ := h
    refine ⟨haccel, hkey, hdclk, hpresc, ?_, hhist⟩
    dsimp only
    split <;> decide
  | writeCtrl d => exact h.writeCtrl d

/-! ## The trigger debouncer -/

theorem Trigger.Ok.reset {p : Params} (hp : p.Legal) : Trigger.reset.Ok p := by
  obtain ⟨⟨hd, -⟩, -⟩ := hp
  refine ⟨fun i => ?_, fun i => ?_, fun i => ?_⟩ <;> simp only [Trigger.reset, Oct.get_build]
  · exact Nat.zero_le _
  · have hne : (0 : BitVec 16).toNat ≠ p.debounceThreshold := Nat.ne_of_lt hd
    rw [decide_eq_false hne]
    exact BitVec.getLsbD_zero
  · revert i
    decide

theorem debounceCount_le {p : Params} (hp : p.Legal) (active : Bool) (n : BitVec 16) :
    (debounceCount p active n).toNat ≤ p.debounceThreshold + 1 := by
  unfold debounceCount
  split
  · rw [BitVec.toNat_ofNat]
    omega
  · exact Nat.zero_le _

/-- A debounce stops the counters at the threshold + 1 and takes the snapshots anew (41_trigger.md R151). -/
theorem Trigger.Ok.debounce {p : Params} (hp : p.Legal) (levels : Byte) (t : Trigger) :
    (Machine.debounce p levels t).Ok p := by
  refine ⟨fun i => ?_, fun i => ?_, fun i => ?_⟩
  · rw [debounce_cnt]
    exact debounceCount_le hp _ _
  · rw [debounce_rise, beq_eq_decide]
  · rw [debounce_released, beq_eq_decide]

/-! ## The MIDI parser -/

theorem Midi.Ok.reset : Midi.reset.Ok := by decide

theorem statusByte_midi_ok (b : Byte) (s : State) (hb : b.getLsbD 7 = true) : (statusByte b s).midi.Ok := by
  have h80 : 0x80 ≤ b.toNat := by revert b; decide
  unfold statusByte
  split
  · next hle => exact ⟨fun _ => ⟨h80, hle⟩, by simp, by simp, by simp, by simp⟩
  · split <;> exact ⟨by simp, by simp, by simp, by simp, by simp⟩

/-- The parser's registers are legal outside the states that use `status`, `data1` and `metaLeft` where these are 0. -/
theorem Midi.Ok.of_zero {m : Midi} (h1 : m.pstate ≠ .ch1) (h2 : m.pstate ≠ .ch2) (hpay : m.pstate ≠ .metaPay)
    (hstatus : m.status = 0) (hdata : m.data1 = 0) (hleft : m.metaLeft = 0) : m.Ok :=
  ⟨fun h => absurd h (not_or.2 ⟨h1, h2⟩), fun _ => hstatus, fun h => absurd h h2, fun _ => hdata,
    fun h => absurd h hpay, fun h => absurd hleft h⟩

/-- In the states of a meta message the status and `data1` are 0, and so is `metaLeft` but in the payload. -/
theorem Midi.Ok.zero_of_meta {m : Midi} (h : m.Ok) (h1 : m.pstate ≠ .ch1) (h2 : m.pstate ≠ .ch2) :
    m.status = 0 ∧ m.data1 = 0 ∧ (m.pstate ≠ .metaPay → m.metaLeft = 0) := by
  obtain ⟨-, hother, -, hdata, hmeta⟩ := h
  exact ⟨hother ⟨h1, h2⟩, hdata h2, fun hp => by_contra fun hne => hp (hmeta.2 hne)⟩

theorem dataFirst_midi_ok (b : BitVec 7) {s : State} (h : s.midi.Ok) (hp : s.midi.pstate = .ch1) :
    (dataFirst b s).midi.Ok := by
  obtain ⟨hch, -, -, -, hmeta⟩ := id h
  unfold dataFirst
  dsimp only
  split
  · exact h
  · next hc =>
    simp only [Bool.or_eq_true, decide_eq_true_eq, not_or] at hc
    refine ⟨fun _ => hch (.inl hp), by simp, fun _ => hc, by simp, ?_⟩
    simpa [hp] using hmeta

/-- The running status is kept over a whole message (42_midi.md R166). -/
theorem dataSecond_midi_ok (b : BitVec 7) {s : State} (h : s.midi.Ok) (hp : s.midi.pstate = .ch2) :
    (dataSecond b s).midi.Ok := by
  obtain ⟨hch, -, -, -, hmeta⟩ := h
  unfold dataSecond
  rw [dispatchMidi_frame]
  refine ⟨fun _ => hch (.inr hp), by simp, by simp, by simp, ?_⟩
  simpa [hp] using hmeta

theorem metaFirst_midi_ok (b : BitVec 7) {s : State} (h : s.midi.Ok) (hp : s.midi.pstate = .meta1) :
    (metaFirst b s).midi.Ok := by
  obtain ⟨hstatus, hdata, hleft⟩ := h.zero_of_meta (by simp [hp]) (by simp [hp])
  unfold metaFirst
  split <;> exact .of_zero nofun nofun nofun hstatus hdata (hleft (by simp [hp]))

theorem metaSecond_midi_ok (b : BitVec 7) {s : State} (h : s.midi.Ok) (hp : s.midi.pstate = .meta2) :
    (metaSecond b s).midi.Ok := by
  obtain ⟨hstatus, hdata, hleft⟩ := h.zero_of_meta (by simp [hp]) (by simp [hp])
  unfold metaSecond
  split <;> exact .of_zero nofun nofun nofun hstatus hdata (hleft (by simp [hp]))

theorem metaLength_midi_ok (b : BitVec 7) {s : State} (h : s.midi.Ok) (hp : s.midi.pstate = .metaLen) :
    (metaLength b s).midi.Ok := by
  obtain ⟨hstatus, hdata, -⟩ := h.zero_of_meta (by simp [hp]) (by simp [hp])
  unfold metaLength
  split
  · next hb => exact .of_zero nofun nofun nofun hstatus hdata hb
  · next hb => exact ⟨by simp, fun _ => hstatus, by simp, fun _ => hdata, fun _ => hb, fun _ => rfl⟩

theorem metaPayload_midi_ok (b : BitVec 7) {s : State} (h : s.midi.Ok) (hp : s.midi.pstate = .metaPay) :
    (metaPayload b s).midi.Ok := by
  obtain ⟨hstatus, hdata, -⟩ := h.zero_of_meta (by simp [hp]) (by simp [hp])
  unfold metaPayload
  dsimp only
  split
  · next hl => exact .of_zero nofun nofun nofun hstatus hdata hl
  · next hl => exact ⟨by simp [hp], fun _ => hstatus, by simp [hp], fun _ => hdata, fun _ => hl, fun _ => hp⟩

/-- Every byte keeps the parser's registers legal (42_midi.md R160 to R171). -/
theorem midiByte_midi_ok (b : Byte) {s : State} (h : s.midi.Ok) : (midiByte b s).midi.Ok := by
  unfold midiByte
  split
  · next hb => exact statusByte_midi_ok b s hb
  · unfold dataByte
    split
    · exact h
    · next hp => exact dataFirst_midi_ok _ h hp
    · next hp => exact dataSecond_midi_ok _ h hp
    · next hp => exact metaFirst_midi_ok _ h hp
    · next hp => exact metaSecond_midi_ok _ h hp
    · next hp => exact metaLength_midi_ok _ h hp
    · next hp => exact metaPayload_midi_ok _ h hp

/-! ## The voices -/

theorem Voice.Ok.reset (v : Fin 8) : (Voice.reset v).Ok := by
  revert v
  decide

/-- The fields that a restart, a mode evaluation, a note and a frame write leave a voice legal that is not Suspended. -/
theorem Voice.Ok.play {x : Voice} (h : x.Ok) (hs : x.state ≠ .suspended) (phase inc : F32) (note : BitVec 7)
    {st : PlayState} (hst : st ≠ .suspended) :
    Voice.Ok { x with phase := phase, phaseIncrement := inc, midiNote := note, state := st } := by
  obtain ⟨hlevel, hpan, hch, hroute, hframes, hbound, -⟩ := h
  exact ⟨hlevel, hpan, hch, hroute, hframes, fun _ => hbound hs, fun he => absurd he hst⟩

theorem Voice.Ok.restart {x : Voice} (h : x.Ok) (hs : x.state ≠ .suspended) (nan : F32) : (Machine.restart nan x).Ok :=
  h.play hs _ x.phaseIncrement x.midiNote (by decide)

theorem Voice.Ok.silence {x : Voice} (h : x.Ok) (hs : x.state ≠ .suspended) : Voice.Ok { x with state := .silent } :=
  h.play hs x.phase x.phaseIncrement x.midiNote (by decide)

/-- CV application clamps the level and the pan (43_voice.md R190 to R193). -/
theorem Voice.Ok.cvApply {x : Voice} (h : x.Ok) (p : Params) (cv : Oct F32) (nan : F32) :
    (cvApplyVoice p cv nan x).Ok := by
  unfold cvApplyVoice
  split
  · exact h
  · obtain ⟨hlevel, hpan, hrest⟩ := h
    refine ⟨?_, ?_, hrest⟩ <;> dsimp only <;> split
    · exact hlevel
    · exact toNat_ofInt_level _
    · exact hpan
    · exact toInt_ofInt_pan _

/-- Everything a mode evaluation can do (43_voice.md R200 to R203). -/
theorem modeEvalVoice_cases (nan : F32) (rise released : Bool) (x : Voice) :
    modeEvalVoice nan rise released x = x ∨
    (x.state ≠ .suspended ∧ (modeEvalVoice nan rise released x = restart nan x ∨
      modeEvalVoice nan rise released x = { x with state := .silent } ∨
      modeEvalVoice nan rise released x = { x with state := .playing })) := by
  unfold modeEvalVoice triggeredEval gatedEval loopedEval
  by_cases hs : x.state = .suspended
  · exact .inl (if_pos hs)
  · rw [if_neg hs]
    cases x.mode with
    | triggered =>
      cases rise with
      | true => exact .inr ⟨hs, .inl rfl⟩
      | false => exact .inl rfl
    | gated =>
      cases rise with
      | true => exact .inr ⟨hs, .inl rfl⟩
      | false =>
        cases released with
        | true => exact .inr ⟨hs, .inr (.inl rfl)⟩
        | false => exact .inl rfl
    | looped => exact .inr ⟨hs, .inr (.inr rfl)⟩

theorem Voice.Ok.modeEval {x : Voice} (h : x.Ok) (nan : F32) (rise released : Bool) :
    (modeEvalVoice nan rise released x).Ok := by
  obtain he | ⟨hs, he | he | he⟩ := modeEvalVoice_cases nan rise released x <;> rw [he]
  · exact h
  · exact h.restart hs nan
  · exact h.silence hs
  · exact h.play hs x.phase x.phaseIncrement x.midiNote (by decide)

/-- Everything a Note-On can do to a voice (42_midi.md R173). -/
theorem noteOnVoice_cases (nan : F32) (c : BitVec 4) (n : BitVec 7) (x : Voice) :
    noteOnVoice nan c n x = x ∨
    (x.state ≠ .suspended ∧ ∃ m, noteOnVoice nan c n x = restart nan { x with midiNote := m }) := by
  unfold noteOnVoice
  split
  · next hl =>
    have hs : x.state ≠ .suspended := by
      simp only [Voice.listens, Bool.and_eq_true, bne_iff_ne] at hl
      exact hl.2
    split
    · exact .inr ⟨hs, n, rfl⟩
    · split
      · exact .inr ⟨hs, x.nativeNote, rfl⟩
      · exact .inl rfl
    · exact .inl rfl
  · exact .inl rfl

/-- Everything a Note-Off can do to a voice (42_midi.md R174). -/
theorem noteOffVoice_cases (c : BitVec 4) (x : Voice) :
    noteOffVoice c x = x ∨ (x.state ≠ .suspended ∧ noteOffVoice c x = { x with state := .silent }) := by
  unfold noteOffVoice
  split
  · next hl =>
    simp only [Voice.listens, Bool.and_eq_true, bne_iff_ne] at hl
    exact .inr ⟨hl.1.2, rfl⟩
  · exact .inl rfl

/-- Everything a dispatch can do to a voice (42_midi.md R167, R172 to R175). -/
theorem dispatchMidi_voice_cases (st : Byte) (d1 d2 : BitVec 7) (s : State) (v : Fin 8) :
    (dispatchMidi st d1 d2 s).voices.get v = s.voices.get v ∨
    (∃ c n, (dispatchMidi st d1 d2 s).voices.get v = noteOnVoice (freeNaN s.draws v.val 0) c n (s.voices.get v)) ∨
    (∃ c, (dispatchMidi st d1 d2 s).voices.get v = noteOffVoice c (s.voices.get v)) := by
  unfold dispatchMidi
  dsimp only
  split
  · split
    · exact .inr (.inr ⟨_, s.mapVoices_get _ v⟩)
    · exact .inr (.inl ⟨_, _, s.mapVoices_get _ v⟩)
  · exact .inr (.inr ⟨_, s.mapVoices_get _ v⟩)
  · exact .inl rfl

/-- Everything a byte can do to a voice: only the second data byte of a message dispatches (42_midi.md R160 to R174). -/
theorem midiByte_voice_cases (b : Byte) (s : State) (v : Fin 8) :
    (midiByte b s).voices.get v = s.voices.get v ∨
    (∃ c n, (midiByte b s).voices.get v = noteOnVoice (freeNaN s.draws v.val 0) c n (s.voices.get v)) ∨
    (∃ c, (midiByte b s).voices.get v = noteOffVoice c (s.voices.get v)) := by
  unfold midiByte
  split
  · left
    unfold statusByte
    split <;> [rfl; (split <;> rfl)]
  · unfold dataByte
    split
    · exact .inl rfl
    · left; unfold dataFirst; dsimp only; split <;> rfl
    · exact dispatchMidi_voice_cases _ _ _ _ v
    · exact .inl rfl
    · exact .inl rfl
    · left; unfold metaLength; split <;> rfl
    · left; unfold metaPayload; dsimp only; split <;> rfl

theorem Voice.Ok.noteOn {x : Voice} (h : x.Ok) (nan : F32) (c : BitVec 4) (n : BitVec 7) :
    (noteOnVoice nan c n x).Ok := by
  obtain he | ⟨hs, m, he⟩ := noteOnVoice_cases nan c n x <;> rw [he]
  · exact h
  · exact h.play hs _ x.phaseIncrement m (by decide)

theorem Voice.Ok.noteOff {x : Voice} (h : x.Ok) (c : BitVec 4) : (noteOffVoice c x).Ok := by
  obtain he | ⟨hs, he⟩ := noteOffVoice_cases c x <;> rw [he]
  · exact h
  · exact h.silence hs

theorem Voice.Ok.midiByte {s : State} {v : Fin 8} (h : (s.voices.get v).Ok) (b : Byte) :
    ((midiByte b s).voices.get v).Ok := by
  obtain he | ⟨c, n, he⟩ | ⟨c, he⟩ := midiByte_voice_cases b s v <;> rw [he]
  · exact h
  · exact h.noteOn _ c n
  · exact h.noteOff c

/-- A frame leaves a voice legal: it goes Silent at most (44_mixer.md R217). -/
theorem Voice.Ok.framed {s : State} {v : Fin 8} {x : Voice} (h : x.Ok) : (framedVoice s v x).Ok := by
  unfold framedVoice
  split
  · exact h
  · next hs =>
    refine h.play hs _ _ x.midiNote ?_
    split
    · decide
    · exact hs

theorem Voice.Ok.noteWrite {x : Voice} (h : x.Ok) (a : Word) : (x.noteWrite a).Ok := by
  by_cases hs : x.state = .suspended
  · rw [noteWrite_suspended x a hs]
    exact h
  · obtain ⟨hlevel, hpan, hch, hroute, hframes, hbound, -⟩ := h
    rw [noteWrite_frame]
    exact ⟨hlevel, hpan, hch, hroute, hframes, hbound, fun he => absurd he hs⟩

/-- A host write of V.STATE keeps R37 (c): only a bound voice leaves Suspended (45_host.md R250). -/
theorem Voice.Ok.withState {x : Voice} (h : x.Ok) {st : PlayState} (hb : st ≠ .suspended → x.bound = true) :
    (x.withState st).Ok := by
  obtain ⟨hlevel, hpan, hch, hroute, hframes, -, -⟩ := h
  exact ⟨hlevel, hpan, hch, hroute, hframes, hb, fun he => if_pos he⟩

/-- A parameter write is clamped to its field's range or touches no ranged field (45_host.md R251 to R264). -/
theorem ParamWrite.ok {x y : Voice} (hw : ParamWrite x y) (h : x.Ok) : y.Ok := by
  obtain ⟨hlevel, hpan, hch, ⟨hl, hp, hs, hpi⟩, hrest⟩ := h
  have route (d : Word) : (routeOperand d).toNat ≤ 8 := (unsignedOperand_bounds d (by decide) (by decide)).2
  cases hw with
  | level d =>
    exact ⟨(unsignedOperand_bounds d (by decide) (by decide)).2, hpan, hch, ⟨hl, hp, hs, hpi⟩, hrest⟩
  | pan d => exact ⟨hlevel, toInt_ofInt_pan _, hch, ⟨hl, hp, hs, hpi⟩, hrest⟩
  | midiChannel d =>
    exact ⟨hlevel, hpan, unsignedOperand_bounds d (by decide) (by decide), ⟨hl, hp, hs, hpi⟩, hrest⟩
  | cvrLevel d => exact ⟨hlevel, hpan, hch, ⟨route d, hp, hs, hpi⟩, hrest⟩
  | cvrPan d => exact ⟨hlevel, hpan, hch, ⟨hl, route d, hs, hpi⟩, hrest⟩
  | cvrSpeed d => exact ⟨hlevel, hpan, hch, ⟨hl, hp, route d, hpi⟩, hrest⟩
  | cvrPitch d => exact ⟨hlevel, hpan, hch, ⟨hl, hp, hs, route d⟩, hrest⟩
  | mode | speed | pitchFactor | transpose | midiNote | nativeNote | midiMode =>
    exact ⟨hlevel, hpan, hch, ⟨hl, hp, hs, hpi⟩, hrest⟩

/-- A buffer write may unbind the voice, which is Suspended (45_host.md R265 to R268). -/
theorem BufferWrite.ok {x y : Voice} (hw : BufferWrite x y) (hs : x.state = .suspended) (h : x.Ok) : y.Ok := by
  obtain ⟨hlevel, hpan, hch, hroute, hframes, -, hraced⟩ := h
  cases hw with
  | base d => exact ⟨hlevel, hpan, hch, hroute, hframes, fun he => absurd hs he, hraced⟩
  | frames d =>
    exact ⟨hlevel, hpan, hch, hroute, (unsignedOperand_bounds d (by decide) (by decide)).2,
      fun he => absurd hs he, hraced⟩
  | channels d => exact ⟨hlevel, hpan, hch, hroute, hframes, fun he => absurd hs he, hraced⟩

/-! ## The whole machine -/

/-- FrameAdvance keeps RENDER's position below FRAMES_PER_CALLBACK, and at 0 outside a callback (44_mixer.md R218). -/
theorem RenderOk.frameAdvance {s : State} (hp : s.cfg.Legal) (hb : s.rBusy = true) (h : RenderOk s) :
    RenderOk (frameAdvance s) := by
  obtain ⟨-, -, -, -, -, -, -, ⟨hf, hf'⟩, -⟩ := hp
  obtain ⟨hlt, -⟩ := h
  unfold Machine.frameAdvance
  split
  · exact ⟨hf, fun _ => rfl⟩
  · refine ⟨?_, fun he => ?_⟩
    · dsimp only
      bv_omega
    · simp [hb] at he

theorem State.RegistersOk.reset {s : State} (h : s.RegistersOk) : s.resetRegisters.RegistersOk := by
  obtain ⟨hp, -, -, -, -, -, hmem⟩ := h
  obtain ⟨-, -, -, -, -, -, -, ⟨hf, -⟩, -⟩ := id hp
  refine ⟨hp, .reset hp, .reset hp, .reset, fun v => ?_, ⟨hf, fun _ => rfl⟩, hmem⟩
  rw [State.resetRegisters_voices, Oct.get_build]
  exact .reset v

theorem State.RegistersOk.prologue {s : State} (h : s.RegistersOk) (levels : Byte) (failed : Bool) :
    (prologue levels failed s).RegistersOk := by
  obtain ⟨hp, henc, -, hmidi, hvoices, -, hmem⟩ := h
  obtain ⟨-, -, -, -, -, -, -, ⟨hf, -⟩, -⟩ := id hp
  rw [prologue_frame]
  refine ⟨hp, henc, .debounce hp _ _, hmidi, fun v => ?_, ⟨hf, fun _ => rfl⟩, hmem⟩
  rw [prologue_voice]
  exact ((hvoices v).cvApply _ _ _).modeEval _ _ _

theorem State.RegistersOk.setVoice {s : State} (h : s.RegistersOk) (v : Fin 8) {x : Voice} (hx : x.Ok) :
    (s.setVoice v x).RegistersOk := by
  obtain ⟨hp, henc, htrig, hmidi, hvoices, hrender, hmem⟩ := h
  exact ⟨hp, henc, htrig, hmidi, Oct.forall_get_set hvoices hx, hrender, hmem⟩

theorem State.RegistersOk.setEnc {s : State} (h : s.RegistersOk) {c : Encoder} (hc : c.Ok s.cfg) :
    (s.setEnc c).RegistersOk := by
  obtain ⟨hp, -, hrest⟩ := h
  exact ⟨hp, hc, hrest⟩

theorem State.RegistersOk.midiByte {s : State} (h : s.RegistersOk) (b : Byte) : (midiByte b s).RegistersOk := by
  obtain ⟨hp, henc, htrig, hmidi, hvoices, hrender, hmem⟩ := h
  rw [midiByte_frame]
  exact ⟨hp, henc, htrig, midiByte_midi_ok b hmidi, fun v => (hvoices v).midiByte b, hrender, hmem⟩

theorem EventEffect.registersOk {s t : State} (he : EventEffect s t) (h : s.RegistersOk) : t.RegistersOk := by
  obtain ⟨hp, henc, -, -, hvoices, -, -⟩ := id h
  cases he with
  | kept hk => exact hk.registersOk h
  | reset => exact h.reset
  | encoder hc hk => exact hk.registersOk (h.setEnc (hc.ok hp henc))
  | callback levels failed => exact h.prologue levels failed
  | midi b => exact h.midiByte b
  | cv k d => exact h
  | param v hs hx => exact h.setVoice v (hx.ok (hvoices v))
  | buffer v hs hx => exact h.setVoice v (hx.ok hs (hvoices v))
  | state v st hb => exact h.setVoice v ((hvoices v).withState hb)

theorem State.RegistersOk.frameAdvance {s : State} (h : s.RegistersOk) (hb : s.rBusy = true) :
    (frameAdvance s).RegistersOk := by
  obtain ⟨hp, henc, htrig, hmidi, hvoices, hrender, hmem⟩ := h
  have hadv := hrender.frameAdvance hp hb
  rw [frameAdvance_frame] at hadv ⊢
  exact ⟨hp, henc, htrig, hmidi, hvoices, hadv, hmem⟩

theorem State.RegistersOk.frameStep {s t : State} (h : s.RegistersOk) (hb : s.rBusy = true)
    (hf : frameStep s = .next t) : t.RegistersOk := by
  obtain ⟨hp, henc, htrig, hmidi, hvoices, hrender, hmem⟩ := h
  obtain ⟨f, -, he⟩ | ⟨m, -, hm, he⟩ := frameStep_cases s <;> rw [he] at hf <;> cases hf
  refine State.RegistersOk.frameAdvance ⟨hp, henc, htrig, hmidi, fun v => ?_, hrender, hmem⟩ hb
  rw [State.emitOut_voices, hm]
  exact (hvoices v).framed

theorem State.RegistersOk.storeSample {s : State} (h : s.RegistersOk) (a d : Word) : (s.storeSample a d).RegistersOk := by
  obtain ⟨hp, henc, htrig, hmidi, hvoices, hrender, hmem⟩ := h
  refine ⟨hp, henc, htrig, hmidi, fun v => ?_, hrender, storeSample_wf s a d hmem⟩
  rw [storeSample_voice]
  exact (hvoices v).noteWrite a

/-- Settles O55: what a step can do, case by case (`step_effect`), keeps each register group legal. -/
theorem stepKeepsRegistersLegal : Obligations.StepKeepsRegistersLegal := by
  intro s t h ht
  obtain ⟨s', hsame, heff⟩ := step_effect ht
  have h' := hsame.registersOk h
  cases heff with
  | event he => exact he.registersOk h'
  | frame hb hf => exact h'.frameStep hb hf
  | sample a d => exact h'.storeSample a d

end Sys2Proof.Machine

/-! SUPPORT. Magnitudes of binary32 values by their bits [30:0], in whose order the values lie, and how each operation
bounds the magnitude of its result (00_scope.md R6). -/

namespace Sys2Proof.Machine

/-! ## Magnitude bits -/

/-- The bits [30:0]: the magnitude of the value, in an order-preserving code. -/
def magBits (x : F32) : Nat := x.toNat % 2 ^ 31

theorem magBits_pack (neg : Bool) {m : Nat} (h : m < 2 ^ 31) : magBits (pack neg m) = m := pack_mod neg m h

theorem magUnits_eq_magOf (x : F32) : magUnits x = magOf (magBits x) := magUnits_eq x

theorem isFinite_iff_magBits (x : F32) : isFinite x = true ↔ magBits x < 0x7F800000 := by
  unfold isFinite magBits
  rw [expField_eq, bne_iff_ne]
  omega

theorem isNaN_iff_magBits (x : F32) : isNaN x = true ↔ 0x7F800000 < magBits x := by
  unfold isNaN magBits
  rw [expField_eq, fracField_eq, Bool.and_eq_true, beq_iff_eq, bne_iff_ne]
  omega

theorem isNaN_eq_false {x : F32} (h : magBits x ≤ 0x7F800000) : isNaN x = false :=
  Bool.eq_false_iff.2 fun hn => by
    have := (isNaN_iff_magBits x).1 hn
    omega

theorem place_eq (x : F32) : place x = if isNeg x then -(magBits x : Int) else magBits x := rfl

/-- The magnitude of a value that is not below 2^-126: 24 bits, scaled by its exponent. -/
theorem magOf_normal (e f : Nat) (hf : f < 2 ^ 23) : magOf ((e + 1) * 2 ^ 23 + f) = (2 ^ 23 + f) * 2 ^ e := by
  have := magOf_scaled e (2 ^ 23 + f) (.inl (by omega)) (by omega)
  rwa [show e * 2 ^ 23 + (2 ^ 23 + f) = (e + 1) * 2 ^ 23 + f by omega] at this

theorem magOf_subnormal {m : Nat} (hm : m < 2 ^ 24) : magOf m = m := by
  have := magOf_scaled 0 m (.inr rfl) (by omega)
  simpa using this

/-- Every value is of one of the two forms. -/
theorem magBits_forms (m : Nat) : m < 2 ^ 23 ∨ ∃ e f, f < 2 ^ 23 ∧ m = (e + 1) * 2 ^ 23 + f := by
  by_cases h : m < 2 ^ 23
  · exact .inl h
  · exact .inr ⟨m / 2 ^ 23 - 1, m % 2 ^ 23, Nat.mod_lt _ (by decide), by omega⟩

/-- A magnitude grows with its bits. -/
theorem magOf_succ_le (m : Nat) : magOf m + 1 ≤ magOf (m + 1) := by
  obtain hm | ⟨e, f, hf, rfl⟩ := magBits_forms m
  · rw [magOf_subnormal (by omega), magOf_subnormal (by omega)]
  · have hpos : 0 < 2 ^ e := by positivity
    have hnext : magOf ((e + 1) * 2 ^ 23 + f + 1) = (2 ^ 23 + (f + 1)) * 2 ^ e := by
      have := magOf_scaled e (2 ^ 23 + (f + 1)) (.inl (by omega)) (by omega)
      rwa [show e * 2 ^ 23 + (2 ^ 23 + (f + 1)) = (e + 1) * 2 ^ 23 + f + 1 by omega] at this
    rw [magOf_normal e f hf, hnext]
    nlinarith

theorem magOf_strictMono : StrictMono magOf := strictMono_nat_of_lt_succ magOf_succ_le

/-! ## Rounding keeps a bound -/

/-- Rounding to an integer does not pass an integer bound. -/
theorem roundQuot_le {n d q : Nat} (hd : 0 < d) (h : n ≤ q * d) : roundQuot n d ≤ q := by
  have hdm := Nat.div_add_mod n d
  have hle : n / d ≤ q := Nat.div_le_of_le_mul (by rwa [Nat.mul_comm] at h)
  unfold roundQuot
  dsimp only
  by_cases he : n / d = q
  · have hr : n % d = 0 := by
      rw [he, Nat.mul_comm] at hdm
      omega
    rw [hr, if_pos (by omega), he]
  · split <;> [omega; (split <;> omega)]

/-- Rounding to binary32 does not pass a binary32 bound. -/
theorem roundMag_le {n d k : Nat} (hd : 0 < d) (hk : k < 0x7F800000) (h : n ≤ magOf k * d) : roundMag n d ≤ k := by
  have hq : n / d ≤ magOf k := Nat.div_le_of_le_mul (by rwa [Nat.mul_comm] at h)
  have hlog : Nat.log2 (n / d) - 23 = 0 ∨ 2 ^ 23 * 2 ^ (Nat.log2 (n / d) - 23) ≤ n / d := by
    by_cases h0 : Nat.log2 (n / d) - 23 = 0
    · exact .inl h0
    · right
      rw [← pow_add, show 23 + (Nat.log2 (n / d) - 23) = Nat.log2 (n / d) by omega]
      refine Nat.log2_self_le fun hz => h0 ?_
      rw [hz]
      rfl
  have hlt : n / d < 2 ^ 24 * 2 ^ (Nat.log2 (n / d) - 23) := by
    rw [← pow_add]
    exact Nat.lt_log2_self.trans_le (Nat.pow_le_pow_right (by decide) (by omega))
  unfold roundMag
  dsimp only
  generalize Nat.log2 (n / d) - 23 = sh at *
  rw [Nat.shiftLeft_eq]
  have hd' : 0 < d * 2 ^ sh := by positivity
  have h24 : roundQuot n (d * 2 ^ sh) ≤ 2 ^ 24 := by
    refine roundQuot_le hd' ?_
    have := (Nat.div_lt_iff_lt_mul hd).1 hlt
    calc n ≤ 2 ^ 24 * 2 ^ sh * d := this.le
      _ = 2 ^ 24 * (d * 2 ^ sh) := by ring
  obtain hk' | ⟨e, f, hf, rfl⟩ := magBits_forms k
  · rw [magOf_subnormal (by omega)] at h hq
    obtain rfl | hlog := hlog
    · have : roundQuot n (d * 2 ^ 0) ≤ k := roundQuot_le hd' (by simpa using h)
      rw [if_neg (by decide)]
      omega
    · have : 1 ≤ 2 ^ sh := Nat.one_le_two_pow
      omega
  · rw [magOf_normal e f hf] at h hq
    have hsh : sh ≤ e := by
      obtain rfl | hlog := hlog
      · exact Nat.zero_le e
      · by_contra hc
        have : 2 ^ (e + 1) ≤ 2 ^ sh := Nat.pow_le_pow_right (by decide) (by omega)
        rw [pow_succ] at this
        have hpos : 0 < 2 ^ e := by positivity
        nlinarith
    rw [if_neg (by omega)]
    refine (Nat.min_le_left _ _).trans ?_
    obtain rfl | hlt' := hsh.eq_or_lt
    · have : roundQuot n (d * 2 ^ sh) ≤ 2 ^ 23 + f := by
        refine roundQuot_le hd' (h.trans_eq ?_)
        ring
      linarith
    · have : sh + 1 ≤ e := hlt'
      linarith

/-! ## The magnitude of a result -/

theorem magBits_flt_le {n : Int} {b m : Nat} (hn : n.natAbs ≤ b) (hm : m < 0x7F800000)
    (h : b * oneUnits ≤ magOf m) : magBits (flt n) ≤ m := by
  have := roundMag_le (n := n.natAbs * oneUnits) one_pos hm
    (((Nat.mul_le_mul_right _ hn).trans h).trans_eq (Nat.mul_one _).symm)
  unfold flt
  rw [magBits_pack _ (by omega)]
  exact this

theorem magUnits_le {x : F32} {m : Nat} (h : magBits x ≤ m) : magUnits x ≤ magOf m :=
  magUnits_eq_magOf x ▸ magOf_strictMono.monotone h

/-- A magnitude bound below infinity makes a value finite. -/
theorem isFinite_of_magBits_le {x : F32} {m : Nat} (h : magBits x ≤ m) (hm : m < 0x7F800000) : isFinite x = true :=
  (isFinite_iff_magBits x).2 (h.trans_lt hm)

theorem magBits_fmul_le (nan : F32) {a b : F32} {ma mb m : Nat} (ha : magBits a ≤ ma) (hb : magBits b ≤ mb)
    (hma : ma < 0x7F800000) (hmb : mb < 0x7F800000) (hm : m < 0x7F800000)
    (h : magOf ma * magOf mb ≤ magOf m * oneUnits) : magBits (fmul nan a b) ≤ m := by
  obtain ⟨han, hai⟩ := (isFinite_iff a).1 (isFinite_of_magBits_le ha hma)
  obtain ⟨hbn, hbi⟩ := (isFinite_iff b).1 (isFinite_of_magBits_le hb hmb)
  have := roundMag_le (by decide) hm ((Nat.mul_le_mul (magUnits_le ha) (magUnits_le hb)).trans h)
  unfold fmul
  simp only [han, hbn, hai, hbi, Bool.or_self, Bool.false_eq_true, if_false]
  rw [magBits_pack _ (by omega)]
  exact this

/-- Of a quotient, with a lower bound of the divisor's magnitude. -/
theorem magBits_fdiv_le (nan : F32) {a b : F32} {ma lb m : Nat} (ha : magBits a ≤ ma) (hb : isFinite b = true)
    (hlb : lb ≤ magUnits b) (hpos : 0 < lb) (hma : ma < 0x7F800000) (hm : m < 0x7F800000)
    (h : magOf ma * oneUnits ≤ magOf m * lb) : magBits (fdiv nan a b) ≤ m := by
  obtain ⟨han, hai⟩ := (isFinite_iff a).1 (isFinite_of_magBits_le ha hma)
  obtain ⟨hbn, hbi⟩ := (isFinite_iff b).1 hb
  have := roundMag_le (n := magUnits a * oneUnits) (hpos.trans_le hlb) hm
    ((Nat.mul_le_mul_right _ (magUnits_le ha)).trans (h.trans (Nat.mul_le_mul_left _ hlb)))
  unfold fdiv
  simp only [han, hbn, hai, hbi, Bool.or_self, Bool.false_eq_true, if_false]
  rw [if_neg (by omega), magBits_pack _ (by omega)]
  exact this

theorem magBits_fadd_le (nan : F32) {a b : F32} {ma mb m : Nat} (ha : magBits a ≤ ma) (hb : magBits b ≤ mb)
    (hma : ma < 0x7F800000) (hmb : mb < 0x7F800000) (hm : m < 0x7F800000)
    (h : magOf ma + magOf mb ≤ magOf m) : magBits (fadd nan a b) ≤ m := by
  obtain ⟨han, hai⟩ := (isFinite_iff a).1 (isFinite_of_magBits_le ha hma)
  obtain ⟨hbn, hbi⟩ := (isFinite_iff b).1 (isFinite_of_magBits_le hb hmb)
  have hau := magUnits_le ha
  have hbu := magUnits_le hb
  have hsum : (units a + units b).natAbs ≤ magUnits a + magUnits b := by
    unfold units
    split <;> split <;> omega
  have := roundMag_le (n := (units a + units b).natAbs) one_pos hm (by omega)
  unfold fadd
  simp only [han, hbn, hai, hbi, Bool.or_self, Bool.false_eq_true, if_false]
  split
  · rw [magBits_pack _ (by decide)]
    exact Nat.zero_le m
  · rw [magBits_pack _ (by omega)]
    exact this

theorem magBits_fneg (x : F32) : magBits (fneg x) = magBits x := by
  unfold magBits fneg
  rw [← BitVec.toNat_setWidth, ← BitVec.toNat_setWidth, BitVec.setWidth_xor]
  simp

theorem magBits_fsub_le (nan : F32) {a b : F32} {ma mb m : Nat} (ha : magBits a ≤ ma) (hb : magBits b ≤ mb)
    (hma : ma < 0x7F800000) (hmb : mb < 0x7F800000) (hm : m < 0x7F800000)
    (h : magOf ma + magOf mb ≤ magOf m) : magBits (fsub nan a b) ≤ m :=
  magBits_fadd_le nan ha ((magBits_fneg b).trans_le hb) hma hmb hm h

/-! ## EXP2F -/

theorem place_bounds (x : F32) : -(magBits x : Int) ≤ place x ∧ place x ≤ magBits x := by
  rw [place_eq]
  split <;> omega

theorem magBits_ofPlace {n : Int} (h : n.natAbs < 2 ^ 31) : magBits (ofPlace n) = n.natAbs := magBits_pack _ h

theorem magBits_pow2 {k : Int} (h : k ≤ 127) : magBits (pow2 k) = (k + 127).toNat * 2 ^ 23 :=
  magBits_pack _ (by omega)

theorem place_pow2 {k : Int} (h : k ≤ 127) : place (pow2 k) = (k + 127).toNat * 2 ^ 23 := by
  have hneg : isNeg (pow2 k) = false := isNeg_pack _ _ (by omega)
  rw [place_eq, hneg, magBits_pow2 h]
  simp

theorem magBits_exp2fFrom_le {lo hi : Int} (base p : Int) (h0 : 0 ≤ lo) (h : lo ≤ hi) (hhi : hi < 2 ^ 31) :
    (magBits (exp2fFrom lo hi base p) : Int) ≤ hi := by
  have := exp2fBlock_bounds 30 lo hi base (p - base).toNat h
  unfold exp2fFrom
  rw [magBits_ofPlace (by omega)]
  omega

/-- A value of magnitude at most `b` has its floor in −b..b. -/
theorem ffloor_bounds {t : F32} {b : Nat} (hf : isFinite t = true) (h : magUnits t ≤ b * oneUnits) :
    -(b : Int) ≤ ffloor t ∧ ffloor t ≤ b := by
  obtain ⟨hlo, hhi⟩ := ffloor_isFloor t hf
  have hone := oneUnits_pos
  have hu : -(b * oneUnits : Int) ≤ units t ∧ units t ≤ b * oneUnits := by
    have : (magUnits t : Int) ≤ b * oneUnits := by exact_mod_cast h
    unfold units
    split <;> omega
  constructor
  · have : (-(b : Int)) * oneUnits < (ffloor t + 1) * oneUnits := by linarith
    have := lt_of_mul_lt_mul_right this hone.le
    omega
  · exact le_of_mul_le_mul_right (hlo.trans hu.2) hone

/-- EXP2F of an exponent of magnitude at most `b` is at most 2^(b + 1) (92_eei_decisions.md D5 (a), (c)). -/
theorem magBits_exp2f_le {t : F32} {b : Nat} (hb : b ≤ 126) (hf : isFinite t = true) (h : magUnits t ≤ b * oneUnits) :
    magBits (exp2f t) ≤ (b + 128) * 2 ^ 23 := by
  have hbits : magBits t ≤ 0x42FC0000 := by
    rw [← magOf_strictMono.le_iff_le, ← magUnits_eq_magOf]
    calc magUnits t ≤ 126 * oneUnits := h.trans (Nat.mul_le_mul_right _ hb)
      _ ≤ magOf 0x42FC0000 := by decide
  have hplace := place_bounds t
  have hhigh : fLt (flt 127) t = false := by
    have : place (flt 127) = 0x42FE0000 := by decide
    simp only [fLt, this, Bool.and_eq_false_iff, decide_eq_false_iff_not]
    omega
  have hlow : fLt t (flt (-126)) = false := by
    have : place (flt (-126)) = -0x42FC0000 := by decide
    simp only [fLt, this, Bool.and_eq_false_iff, decide_eq_false_iff_not]
    omega
  obtain ⟨hk, hk'⟩ := ffloor_bounds hf h
  unfold exp2f
  rw [isNaN_eq_false (by omega), hhigh, hlow]
  simp only [Bool.false_eq_true, if_false]
  generalize ffloor t = k at *
  split
  · rw [magBits_pow2 (by omega)]
    omega
  · have hp := place_pow2 (k := k) (by omega)
    have hp' := place_pow2 (k := k + 1) (by omega)
    have := magBits_exp2fFrom_le (place (flt k)) (place t) (lo := place (pow2 k)) (hi := place (pow2 (k + 1)))
      (by omega) (by omega) (by omega)
    omega

/-! ## The unit interval and the pitch factor -/

/-- A binary32 value in [0, 1): what the phase is after a frame (10_state.md R23). -/
abbrev InUnitStrict (x : F32) : Prop := fLe f0 x = true ∧ fLt x f1 = true

theorem place_f0 : place f0 = 0 := by decide

theorem place_f1 : place f1 = 0x3F800000 := by decide

theorem isNaN_f0 : isNaN f0 = false := by decide

theorem isNaN_f1 : isNaN f1 = false := by decide

theorem inUnit_iff_place (x : F32) : InUnit x ↔ isNaN x = false ∧ 0 ≤ place x ∧ place x ≤ 0x3F800000 := by
  rw [InUnit, fLe_iff_place, fLe_iff_place, place_f0, place_f1]
  have := isNaN_f0
  have := isNaN_f1
  tauto

theorem inUnitStrict_iff_place (x : F32) :
    InUnitStrict x ↔ isNaN x = false ∧ 0 ≤ place x ∧ place x < 0x3F800000 := by
  rw [InUnitStrict, fLe_iff_place, fLt_iff_place, place_f0, place_f1]
  have := isNaN_f0
  have := isNaN_f1
  tauto

theorem InUnitStrict.inUnit {x : F32} (h : InUnitStrict x) : InUnit x := by
  obtain ⟨hn, h0, h1⟩ := (inUnitStrict_iff_place x).1 h
  exact (inUnit_iff_place x).2 ⟨hn, h0, h1.le⟩

theorem magBits_le_of_inUnit {x : F32} (h : InUnit x) : magBits x ≤ 0x3F800000 := by
  obtain ⟨-, h0, h1⟩ := (inUnit_iff_place x).1 h
  have hp := place_eq x
  split at hp <;> omega

theorem inUnit_f0 : InUnit f0 := by decide

theorem inUnit_f1 : InUnit f1 := by decide

/-- Of two values that are no NaN, one is at most the other or above it. -/
theorem place_lt_of_not_fLe {a b : F32} (ha : isNaN a = false) (hb : isNaN b = false) (h : ¬fLe a b = true) :
    place b < place a := by
  rw [fLe_iff_place] at h
  exact lt_of_not_ge fun hle => h ⟨ha, hb, hle⟩

theorem place_le_of_not_fLt {a b : F32} (ha : isNaN a = false) (hb : isNaN b = false) (h : ¬fLt a b = true) :
    place b ≤ place a := by
  rw [fLt_iff_place] at h
  exact le_of_not_gt fun hlt => h ⟨ha, hb, hlt⟩

/-- A write of a CV register stores a value in [0, 1] (45_host.md R246). -/
theorem inUnit_cvOperand (d : Word) : InUnit (cvOperand d) := by
  unfold cvOperand
  split
  · exact inUnit_f0
  · next hlo =>
    split
    · exact inUnit_f1
    · next hhi =>
      rw [Bool.or_eq_true, not_or, Bool.not_eq_true] at hlo
      obtain ⟨hn, hlo⟩ := hlo
      have h0 : place f0 < place d := place_lt_of_not_fLe hn isNaN_f0 hlo
      have h1 : place d < place f1 := place_lt_of_not_fLe isNaN_f1 hn hhi
      exact (inUnit_iff_place d).2 ⟨hn, h0.le, h1.le⟩

theorem magBits_and_mask (d : F32) : magBits (d &&& 0x7FFFFFFF) = magBits d := by
  unfold magBits
  rw [BitVec.toNat_and, show (0x7FFFFFFF : F32).toNat = 2 ^ 31 - 1 from rfl, Nat.and_two_pow_sub_one_eq_mod, Nat.mod_mod]

theorem isNeg_and_mask (d : F32) : isNeg (d &&& 0x7FFFFFFF) = false := by
  unfold isNeg
  rw [BitVec.msb_and, show (0x7FFFFFFF : F32).msb = false from rfl, Bool.and_false]

/-- A legal pitch factor is one of magnitude at most 65536 (10_state.md R26). -/
theorem pitchOperand_isSome_iff (d : F32) : (pitchOperand d).isSome = true ↔ magBits d ≤ 0x47800000 := by
  have hp : place (d &&& 0x7FFFFFFF) = magBits d := by
    rw [place_eq, isNeg_and_mask, magBits_and_mask, if_neg Bool.false_ne_true]
  have h1 : place f65536 = 0x47800000 := by decide
  have hn1 : isNaN f65536 = false := by decide
  unfold pitchOperand
  rw [apply_ite Option.isSome]
  simp only [Option.isSome_some, Option.isSome_none, Bool.if_false_right, Bool.and_true, decide_eq_true_eq,
    Bool.and_eq_true, isFinite_iff_magBits, fLe_iff_place, hp, h1, hn1]
  refine ⟨fun h => by omega, fun h => ⟨by omega, isNaN_eq_false ?_, trivial, by omega⟩⟩
  rw [magBits_and_mask]
  omega

theorem eq_of_pitchOperand {d y : F32} (h : pitchOperand d = some y) : y = d := by
  unfold pitchOperand at h
  split at h <;> cases h
  rfl

/-- A CV pitch is at most 2^8: its exponent 5c − 2 has magnitude at most 7 (43_voice.md R194). -/
theorem pitchOperand_cvPitch (nan : F32) {c : F32} (hc : InUnit c) : (pitchOperand (cvPitch nan c)).isSome = true := by
  have hmul : magBits (fmul nan f5 c) ≤ 0x40A00000 :=
    magBits_fmul_le nan (ma := 0x40A00000) (by decide) (magBits_le_of_inUnit hc) (by decide) (by decide) (by decide)
      (by decide)
  have hsub : magBits (fsub nan (fmul nan f5 c) f2) ≤ 0x40E00000 :=
    magBits_fsub_le nan hmul (mb := 0x40000000) (by decide) (by decide) (by decide) (by decide) (by decide)
  have := magBits_exp2f_le (b := 7) (by decide) (isFinite_of_magBits_le hsub (by decide))
    ((magUnits_le hsub).trans (by decide))
  rw [pitchOperand_isSome_iff]
  unfold cvPitch
  omega

/-! ## The increment, the pre-wrap phase and the position -/

theorem magUnits_flt {n : Nat} (h : n ≤ 2 ^ 24) : magUnits (flt n) = n * oneUnits := by
  rw [magUnits_eq, ← natAbs_units, (units_flt n h).2, Int.natAbs_mul, Int.natAbs_natCast, Int.natAbs_natCast]

/-- The increment of a bound voice is at most 2^45 in magnitude: speed/1000 below 2^6, the pitch factor at most 2^16,
EXP2F of an exponent below 22 at most 2^23, N at least 1 (44_mixer.md R212). -/
theorem magBits_increment_le (nan : F32) {x : Voice} (hpitch : (pitchOperand x.pitchFactor).isSome = true)
    (hN : 1 ≤ x.bufFrames.toNat) (hN' : x.bufFrames.toNat ≤ 2 ^ 24) : magBits (increment nan x) ≤ 0x56000000 := by
  rw [pitchOperand_isSome_iff] at hpitch
  have hspeed : magBits (fdiv nan (flt x.speed.toInt) f1000) ≤ 0x42800000 := by
    have : x.speed.toInt.natAbs ≤ 32768 := by
      have := x.speed.toInt_lt
      have := x.speed.le_toInt
      omega
    exact magBits_fdiv_le nan (magBits_flt_le (m := 0x47000000) this (by decide) (by decide)) (by decide) le_rfl
      (by decide) (by decide) (by decide) (by decide)
  have hfactor : magBits (fmul nan (fdiv nan (flt x.speed.toInt) f1000) x.pitchFactor) ≤ 0x4A800000 :=
    magBits_fmul_le nan hspeed hpitch (by decide) (by decide) (by decide) (by decide)
  have hexp : magBits (fdiv nan (flt (semitones x)) f12) ≤ 0x41B00000 := by
    have : (semitones x).natAbs ≤ 255 := by
      have := x.midiNote.isLt
      have := x.nativeNote.isLt
      have := x.transpose.toInt_lt
      have := x.transpose.le_toInt
      unfold semitones
      omega
    exact magBits_fdiv_le nan (magBits_flt_le (m := 0x437F0000) this (by decide) (by decide)) (by decide) le_rfl
      (by decide) (by decide) (by decide) (by decide)
  have hg : magBits (exp2f (fdiv nan (flt (semitones x)) f12)) ≤ 0x4B000000 :=
    magBits_exp2f_le (b := 22) (by decide) (isFinite_of_magBits_le hexp (by decide))
      ((magUnits_le hexp).trans (by decide))
  have hprod : magBits (fmul nan (fmul nan (fdiv nan (flt x.speed.toInt) f1000) x.pitchFactor)
      (exp2f (fdiv nan (flt (semitones x)) f12))) ≤ 0x56000000 :=
    magBits_fmul_le nan hfactor hg (by decide) (by decide) (by decide) (by decide)
  have hNfin := (units_flt x.bufFrames.toNat hN').1
  have hNmag : oneUnits ≤ magUnits (flt x.bufFrames.toNat) := by
    rw [magUnits_flt hN']
    exact Nat.le_mul_of_pos_left _ hN
  exact magBits_fdiv_le nan hprod hNfin hNmag (by decide) (by decide) (by decide) le_rfl

end Sys2Proof.Machine

/-! SUPPORT. The invariant of the binary32 registers (10_state.md R23, R37 (b), R40; 44_mixer.md R212, R216), kept by
each part of the block. -/

namespace Sys2Proof.Machine

/-! ## The phase in a frame -/

/-- The increment, the pre-wrap phase and the position of a legal voice that is not Suspended are bounded
(44_mixer.md R212, R214, R216). -/
theorem frame_magBits_le {x : Voice} (hok : x.Ok) (hfl : x.FloatsOk) (hs : x.state ≠ .suspended) (nan nan1 nan2 : F32) :
    magBits (increment nan x) ≤ 0x56000000 ∧
    magBits (fadd nan1 x.phase (increment nan x)) ≤ 0x56800000 ∧
    magBits (fmul nan2 (fadd nan1 x.phase (increment nan x)) (flt x.bufFrames.toNat)) ≤ 0x62800000 := by
  obtain ⟨-, -, -, -, hframes, hbound, -⟩ := hok
  obtain ⟨hphase, -, hpitch⟩ := hfl
  have hN : 1 ≤ x.bufFrames.toNat := by
    have := hbound hs
    simp only [Voice.bound, Bool.and_eq_true, bne_iff_ne] at this
    bv_omega
  have hinc := magBits_increment_le nan hpitch hN hframes
  have hp2 : magBits (fadd nan1 x.phase (increment nan x)) ≤ 0x56800000 :=
    magBits_fadd_le nan1 (magBits_le_of_inUnit hphase) hinc (by decide) (by decide) (by decide) (by decide)
  refine ⟨hinc, hp2, magBits_fmul_le nan2 hp2 (mb := 0x4B800000) ?_ (by decide) (by decide) (by decide) (by decide)⟩
  exact magBits_flt_le hframes (by decide) (by decide)

/-- The wrapped phase of a finite value is in [0, 1): what rounds to 1.0 becomes +0.0 (44_mixer.md R216). -/
theorem wrapPhase_inUnitStrict {p2 : F32} (h : isFinite p2 = true) : InUnitStrict (wrapPhase p2) := by
  obtain ⟨q, hq, hneg, he⟩ := wrapPhase_roundsTo p2 h
  have hle : magBits q ≤ 0x3F800000 := by
    have hfloor := (ffloor_isFloor p2 h).2
    have hu : units q ≤ units f1 := hq.units_le (by decide) (by
      rw [show units f1 = oneUnits by decide]
      linarith)
    rw [← magOf_strictMono.le_iff_le, ← magUnits_eq_magOf]
    simp only [units, hneg, Bool.false_eq_true, if_false, show isNeg f1 = false by decide, Nat.cast_le] at hu
    exact hu.trans (by decide)
  rw [he]
  split
  · decide
  · next hne =>
    have hne' : magBits q ≠ 0x3F800000 := by
      intro hc
      refine hne (BitVec.eq_of_toNat_eq ?_)
      have hlt : q.toNat < 2 ^ 31 := by
        simpa [isNeg, BitVec.msb_eq_decide] using hneg
      rw [magBits, Nat.mod_eq_of_lt hlt] at hc
      exact hc
    rw [inUnitStrict_iff_place, place_eq, hneg]
    refine ⟨isNaN_eq_false (by omega), ?_⟩
    simp only [Bool.false_eq_true, if_false]
    omega

/-- After a frame the phase is in [0, 1), where the pre-wrap phase is finite (44_mixer.md R210, R216). -/
theorem advanceVoice_phase (x : Voice) {p2 : F32} (inc : F32) (h : isFinite p2 = true) :
    InUnitStrict (advanceVoice x p2 inc).phase := by
  have hn := ((isFinite_iff p2).1 h).1
  unfold advanceVoice
  dsimp only
  split
  · exact wrapPhase_inUnitStrict h
  · next hl =>
    rw [leavesUnit, Bool.or_eq_true, not_or] at hl
    obtain ⟨hhi, hlo⟩ := hl
    have h0 : place f0 ≤ place p2 := place_le_of_not_fLt hn isNaN_f0 hlo
    have h1 : place p2 < place f1 := place_lt_of_not_fLe isNaN_f1 hn hhi
    exact (inUnitStrict_iff_place p2).2 ⟨hn, h0, h1⟩

/-! ## The voices -/

theorem Voice.FloatsOk.reset (v : Fin 8) : (Voice.reset v).FloatsOk := by
  revert v
  decide

/-- A restart begins at one end of the buffer (43_voice.md R197). -/
theorem Voice.FloatsOk.restart {x : Voice} (h : x.FloatsOk) (nan : F32) : (Machine.restart nan x).FloatsOk := by
  obtain ⟨-, hrest⟩ := h
  refine ⟨?_, hrest⟩
  unfold Machine.restart
  dsimp only
  split
  · exact inUnit_f1
  · exact inUnit_f0

theorem Voice.FloatsOk.cvApply {x : Voice} (h : x.FloatsOk) (p : Params) {cv : Oct F32} (hcv : ∀ k, InUnit (cv.get k))
    (nan : F32) : (cvApplyVoice p cv nan x).FloatsOk := by
  unfold cvApplyVoice
  split
  · exact h
  · obtain ⟨hphase, hinc, hpitch⟩ := h
    refine ⟨hphase, hinc, ?_⟩
    dsimp only
    split
    · exact hpitch
    · exact pitchOperand_cvPitch nan (hcv _)

theorem Voice.FloatsOk.modeEval {x : Voice} (h : x.FloatsOk) (nan : F32) (rise released : Bool) :
    (modeEvalVoice nan rise released x).FloatsOk := by
  obtain he | ⟨-, he | he | he⟩ := modeEvalVoice_cases nan rise released x <;> rw [he]
  · exact h
  · exact h.restart nan
  · exact h
  · exact h

theorem Voice.FloatsOk.noteOn {x : Voice} (h : x.FloatsOk) (nan : F32) (c : BitVec 4) (n : BitVec 7) :
    (noteOnVoice nan c n x).FloatsOk := by
  obtain he | ⟨-, m, he⟩ := noteOnVoice_cases nan c n x <;> rw [he]
  · exact h
  · exact Voice.FloatsOk.restart (x := { x with midiNote := m }) h nan

theorem Voice.FloatsOk.noteOff {x : Voice} (h : x.FloatsOk) (c : BitVec 4) : (noteOffVoice c x).FloatsOk := by
  obtain he | ⟨-, he⟩ := noteOffVoice_cases c x <;> rw [he]
  · exact h
  · exact h

theorem Voice.FloatsOk.midiByte {s : State} {v : Fin 8} (h : (s.voices.get v).FloatsOk) (b : Byte) :
    ((midiByte b s).voices.get v).FloatsOk := by
  obtain he | ⟨c, n, he⟩ | ⟨c, he⟩ := midiByte_voice_cases b s v <;> rw [he]
  · exact h
  · exact h.noteOn _ c n
  · exact h.noteOff c

/-- A frame needs the voice bound, so that its increment is finite. -/
theorem Voice.FloatsOk.framed {s : State} {v : Fin 8} {x : Voice} (h : x.FloatsOk) (hok : x.Ok) :
    (framedVoice s v x).FloatsOk := by
  unfold framedVoice
  split
  · exact h
  · next hs =>
    obtain ⟨hinc, hp2, -⟩ := frame_magBits_le hok h hs (freeNaN s.draws v.val 0) (freeNaN s.draws v.val 1) f0
    obtain ⟨-, -, hpitch⟩ := h
    have hphase := advanceVoice_phase x (increment (freeNaN s.draws v.val 0) x) (isFinite_of_magBits_le hp2 (by decide))
    exact ⟨hphase.inUnit, isFinite_of_magBits_le hinc (by decide), hpitch⟩

theorem Voice.FloatsOk.noteWrite {x : Voice} (h : x.FloatsOk) (a : Word) : (x.noteWrite a).FloatsOk := by
  rw [noteWrite_frame]
  exact h

/-- Of the binary32 registers the host writes the pitch factor only, and no illegal one (45_host.md R253). -/
theorem ParamWrite.floatsOk {x y : Voice} (hw : ParamWrite x y) (h : x.FloatsOk) : y.FloatsOk := by
  obtain ⟨hphase, hinc, hpitch⟩ := h
  cases hw with
  | pitchFactor d z hz =>
    obtain rfl := eq_of_pitchOperand hz
    exact ⟨hphase, hinc, Option.isSome_of_eq_some hz⟩
  | mode | speed | transpose | level | pan | midiChannel | midiNote | nativeNote | midiMode | cvrLevel | cvrPan | cvrSpeed
  | cvrPitch => exact ⟨hphase, hinc, hpitch⟩

theorem BufferWrite.floatsOk {x y : Voice} (hw : BufferWrite x y) (h : x.FloatsOk) : y.FloatsOk := by
  cases hw with
  | base | frames | channels => exact h

/-! ## The whole machine -/

theorem State.FloatsOk.reset (s : State) : s.resetRegisters.FloatsOk := by
  refine ⟨fun k => ?_, fun v => ?_⟩
  · rw [State.resetRegisters_cv, cvReset, Oct.get_build]
    exact inUnit_f0
  · rw [State.resetRegisters_voices, Oct.get_build]
    exact .reset v

theorem State.FloatsOk.prologue {s : State} (h : s.FloatsOk) (levels : Byte) (failed : Bool) :
    (prologue levels failed s).FloatsOk := by
  obtain ⟨hcv, hvoices⟩ := h
  rw [prologue_frame]
  refine ⟨hcv, fun v => ?_⟩
  rw [prologue_voice]
  exact ((hvoices v).cvApply _ hcv _).modeEval _ _ _

theorem State.FloatsOk.setVoice {s : State} (h : s.FloatsOk) (v : Fin 8) {x : Voice} (hx : x.FloatsOk) :
    (s.setVoice v x).FloatsOk := by
  obtain ⟨hcv, hvoices⟩ := h
  exact ⟨hcv, Oct.forall_get_set hvoices hx⟩

theorem State.FloatsOk.midiByte {s : State} (h : s.FloatsOk) (b : Byte) : (midiByte b s).FloatsOk := by
  obtain ⟨hcv, hvoices⟩ := h
  rw [midiByte_frame]
  exact ⟨hcv, fun v => (hvoices v).midiByte b⟩

theorem EventEffect.floatsOk {s t : State} (he : EventEffect s t) (h : s.FloatsOk) : t.FloatsOk := by
  obtain ⟨hcv, hvoices⟩ := id h
  cases he with
  | kept hk => exact hk.floatsOk h
  | reset => exact .reset s
  | encoder _ hk => exact hk.floatsOk h
  | callback levels failed => exact h.prologue levels failed
  | midi b => exact h.midiByte b
  | cv k d => exact ⟨Oct.forall_get_set hcv (inUnit_cvOperand d), hvoices⟩
  | param v _ hx => exact h.setVoice v (hx.floatsOk (hvoices v))
  | buffer v _ hx => exact h.setVoice v (hx.floatsOk (hvoices v))
  | state v st _ => exact h.setVoice v (hvoices v)

/-- What a completed frame makes of a voice. -/
theorem frameStep_voice {s t : State} (h : frameStep s = .next t) (v : Fin 8) :
    t.voices.get v = framedVoice s v (s.voices.get v) := by
  obtain ⟨f, -, he⟩ | ⟨m, -, hm, he⟩ := frameStep_cases s <;> rw [he] at h <;> cases h
  rw [frameAdvance_frame, State.emitOut_voices]
  exact hm v

theorem frameStep_cv {s t : State} (h : frameStep s = .next t) : t.cv = s.cv := by
  obtain ⟨f, -, he⟩ | ⟨m, -, -, he⟩ := frameStep_cases s <;> rw [he] at h <;> cases h
  rw [frameAdvance_frame]
  rfl

theorem State.FloatsOk.frameStep {s t : State} (h : s.FloatsOk) (hok : s.RegistersOk) (hf : frameStep s = .next t) :
    t.FloatsOk := by
  obtain ⟨hcv, hvoices⟩ := h
  obtain ⟨-, -, -, -, hok, -, -⟩ := hok
  refine ⟨fun k => ?_, fun v => ?_⟩
  · rw [frameStep_cv hf]
    exact hcv k
  · rw [frameStep_voice hf]
    exact (hvoices v).framed (hok v)

theorem State.FloatsOk.storeSample {s : State} (h : s.FloatsOk) (a d : Word) : (s.storeSample a d).FloatsOk := by
  obtain ⟨hcv, hvoices⟩ := h
  refine ⟨hcv, fun v => ?_⟩
  rw [storeSample_voice]
  exact (hvoices v).noteWrite a

theorem step_floatsOk {s t : State} (hok : s.RegistersOk) (h : s.FloatsOk) (ht : step s = .next t) : t.FloatsOk := by
  obtain ⟨s', hsame, heff⟩ := step_effect ht
  have h' := hsame.floatsOk h
  cases heff with
  | event he => exact he.floatsOk h'
  | frame _ hf => exact h'.frameStep (hsame.registersOk hok) hf
  | sample a d => exact h'.storeSample a d

/-- Settles O56: every step keeps the ranges, and a frame's pre-wrap phase and position are finite because the increment
of a legal voice is at most 2^45 in magnitude. -/
theorem stepKeepsPhaseInUnit : Obligations.StepKeepsPhaseInUnit := by
  refine ⟨fun s t hok h ht => step_floatsOk hok h ht, fun s t v hok h hs hf => ?_⟩
  obtain ⟨-, -, -, -, hvoices, -, -⟩ := hok
  obtain ⟨-, hfloats⟩ := h
  obtain ⟨-, hp2, hpos⟩ := frame_magBits_le (hvoices v) (hfloats v) hs (freeNaN s.draws v.val 0)
    (freeNaN s.draws v.val 1) (freeNaN s.draws v.val 2)
  have hp2' := isFinite_of_magBits_le hp2 (by decide)
  refine ⟨hp2', isFinite_of_magBits_le hpos (by decide), ?_⟩
  rw [frameStep_voice hf, framedVoice, if_neg hs]
  exact advanceVoice_phase _ _ hp2'

end Sys2Proof.Machine

/-! SUPPORT. Where a step comes from, one equation per turn (20_memory.md R72, R73), and which words begin with a whole
event (30_encoding.md R91, R102). -/

namespace Sys2Proof

/-- A host write is the one event with a data word (30_encoding.md R91, R102). -/
theorem headerHasData_iff (h : Half) : headerHasData h = true ↔ headerPort h = 0 ∧ h.getLsbD 12 = true := by
  simp [headerHasData]

/-- The decoder rejects no words at all, and a host write whose data word is not whole, and nothing else. -/
theorem decode_rejects_iff (ws : List Half) : (∃ why, decode ws = .reject why) ↔
    (ws = [] ∨ ∃ h rest, ws = h :: rest ∧ headerPort h = 0 ∧ h.getLsbD 12 = true ∧ rest.length < 2) := by
  cases ws with
  | nil => simp [decode]
  | cons h rest =>
    cases hd : headerHasData h with
    | false =>
      have hok : decode (h :: rest) = .ok (decodeEvent h 0) rest := by simp [decode, hd]
      have hno : ¬(headerPort h = 0 ∧ h.getLsbD 12 = true) := by rw [← headerHasData_iff, hd]; exact Bool.false_ne_true
      refine iff_of_false (by simp [hok]) ?_
      rintro (hnil | ⟨_, _, he, hport, hw, -⟩)
      · cases hnil
      · cases he
        exact hno ⟨hport, hw⟩
    | true =>
      obtain ⟨hport, hw⟩ := (headerHasData_iff h).1 hd
      match rest with
      | [] => simp [decode, hd, hport, hw]
      | [_] => simp [decode, hd, hport, hw]
      | _ :: _ :: _ => simp [decode, hd]

end Sys2Proof

namespace Sys2Proof.Machine

/-! ## The step, by whose turn it is -/

theorem eventStep_of_ok {s : State} {i : Instr} {rest : List Half} (h : decode s.inbox = .ok i rest) :
    eventStep s = exec i { s with inbox := rest } := by simp only [eventStep, h]

theorem eventStep_of_reject {s : State} {why : DecodeError} (h : decode s.inbox = .reject why) :
    eventStep s = renderStep s := by simp only [eventStep, h]

theorem step_of_no_turn {s : State} (h : s.turns = []) : step s = eventStep s := by simp only [step, h]

theorem step_of_event_turn {s : State} {ts : List Turn} (h : s.turns = .event :: ts) :
    step s = eventStep { s with turns := ts } := by simp only [step, h]

theorem step_of_render_turn {s : State} {ts : List Turn} (h : s.turns = .render :: ts) :
    step s = renderStep { s with turns := ts } := by simp only [step, h]

theorem step_of_sample_turn {s : State} {ts : List Turn} {a d : Word} (h : s.turns = .sample a d :: ts) :
    step s = .next ({ s with turns := ts }.storeSample a d) := by simp only [step, h]

/-- The turn is RENDER's where `turns` says so, and where the turn is an event's and no whole event is there (log 9,
log 12). -/
theorem step_eq_renderStep {s : State} {ts : List Turn}
    (h : s.turns = .render :: ts ∨
      ((s.turns = [] ∧ ts = [] ∨ s.turns = .event :: ts) ∧ ∃ why, decode s.inbox = .reject why)) :
    step s = renderStep { s with turns := ts } := by
  obtain h | ⟨⟨h, rfl⟩ | h, why, hd⟩ := h
  · exact step_of_render_turn h
  · rw [step_of_no_turn h, eventStep_of_reject hd, ← h]
  · rw [step_of_event_turn h]
    exact eventStep_of_reject hd

theorem renderStep_of_busy {s : State} (h : s.rBusy = true) : renderStep s = frameStep s := by
  simp only [renderStep, h, if_true]

theorem renderStep_of_held {s : State} {c : Callback} {rest : List Callback} (hb : s.rBusy = false)
    (hh : s.held = c :: rest) : renderStep s = .next (prologue c.levels c.failed { s with held := rest }) := by
  simp only [renderStep, hb, hh, Bool.false_eq_true, if_false]

theorem renderStep_of_ready {s : State} (h : Ready s) : renderStep s = .next s := by
  obtain ⟨hb, hh⟩ := h
  simp only [renderStep, hb, hh, Bool.false_eq_true, if_false]

/-- Settles O6: the event that the decoder finds is the one that runs, whether its turn is listed or not. -/
theorem stepRunsDecodedInstruction : Obligations.StepRunsDecodedInstruction := by
  refine fun s i rest hd => ⟨fun h => ?_, fun ts h => ?_⟩
  · rw [step_of_no_turn h, eventStep_of_ok hd]
  · rw [step_of_event_turn h]
    exact eventStep_of_ok hd

/-- Settles O7: RENDER's turn is `renderStep`, by its three cases, and `decode_rejects_iff` says when no whole event is
there. -/
theorem renderTakesItsTurn : Obligations.RenderTakesItsTurn := by
  refine ⟨fun s ts h => ?_, decode_rejects_iff⟩
  rw [step_eq_renderStep h]
  exact ⟨fun hb => renderStep_of_busy hb, fun _ _ hb hh => renderStep_of_held hb hh, fun hr => renderStep_of_ready hr⟩

end Sys2Proof.Machine

/-! SUPPORT. Reads of sample memory (20_memory.md R75): the address and the word of one read, and that a frame is stuck
only at a word that does not exist. -/

namespace Sys2Proof.Machine

/-! ## One read -/

/-- The address of a frame is computed modulo 2^32 (20_memory.md R75). -/
theorem sampleAddr_natCast (x : Voice) (f : Nat) :
    sampleAddr x f = x.bufBase + BitVec.ofNat 32 f * BitVec.ofNat 32 x.bufChannels.toNat := by
  rw [sampleAddr, BitVec.ofInt_add, BitVec.ofInt_mul]
  simp only [BitVec.ofInt_natCast, BitVec.ofNat_toNat, BitVec.setWidth_eq]

/-- No memory at the address is a fault (20_memory.md R75 (a)). -/
theorem sampleRead_of_none {mem : Memory} {x : Voice} {f : Int} (draw voice site : Nat)
    (h : readWord mem (sampleAddr x f) = none) :
    sampleRead mem draw voice site x f = .error (.noSampleMemory (sampleAddr x f)) := by
  simp only [sampleRead, h]

/-- A word that raced reads as a free value, any other as it is stored (20_memory.md R75 (b), (c)). -/
theorem sampleRead_of_some {mem : Memory} {x : Voice} {f : Int} {w : Word} (draw voice site : Nat)
    (h : readWord mem (sampleAddr x f) = some w) :
    sampleRead mem draw voice site x f =
      .ok (if sampleAddr x f ∈ x.raced then Config.racedWord draw voice site else w) := by
  simp only [sampleRead, h, List.contains_iff_mem]

/-- A read that faults names its address, where no memory is. -/
theorem sampleRead_error {mem : Memory} {draw voice site : Nat} {x : Voice} {f : Int} {e : Fault}
    (h : sampleRead mem draw voice site x f = .error e) :
    e = .noSampleMemory (sampleAddr x f) ∧ readWord mem (sampleAddr x f) = none := by
  cases hw : readWord mem (sampleAddr x f) with
  | none =>
    rw [sampleRead_of_none _ _ _ hw] at h
    cases h
    exact ⟨rfl, rfl⟩
  | some w =>
    rw [sampleRead_of_some _ _ _ hw] at h
    cases h

/-! ## The reads of a frame -/

/-- The fault `e` is that of a read of `x`'s buffer, at one of its frames, where no memory is: the frame number is
reduced modulo the buffer's length (44_mixer.md R214). -/
def MissesSample (mem : Memory) (x : Voice) (e : Fault) : Prop :=
  ∃ i : Int, e = .noSampleMemory (sampleAddr x (i % (x.bufFrames.toNat : Int))) ∧
    readWord mem (sampleAddr x (i % (x.bufFrames.toNat : Int))) = none

/-- A bound voice whose descriptor covers existing memory misses no sample: a frame number modulo the buffer's length
is one of its frames (45_host.md R294 (b)). -/
theorem not_missesSample_of_covered {mem : Memory} {x : Voice} (hb : x.bound = true) (hc : Covered mem x) (e : Fault) :
    ¬MissesSample mem x e := by
  rintro ⟨i, -, hnone⟩
  have hpos : 0 < x.bufFrames.toNat := by
    simp only [Voice.bound, Bool.and_eq_true, bne_iff_ne] at hb
    bv_omega
  have h0 : 0 ≤ i % (x.bufFrames.toNat : Int) := Int.emod_nonneg i (by omega)
  have hlt : i % (x.bufFrames.toNat : Int) < x.bufFrames.toNat := Int.emod_lt_of_pos i (by omega)
  obtain ⟨k, hk⟩ := Int.eq_ofNat_of_zero_le h0
  rw [hk] at hnone hlt
  have hsome := hc k (by omega)
  rw [hnone] at hsome
  cases hsome

theorem lookup_error {mem : Memory} {draw voice : Nat} {nan p2 inc : F32} {x : Voice} {e : Fault}
    (h : lookup mem draw voice nan x p2 inc = .error e) : MissesSample mem x e := by
  unfold lookup at h
  dsimp only at h
  split at h
  · next h0 =>
    cases h
    exact ⟨_, sampleRead_error h0⟩
  · split at h
    · next h1 =>
      cases h
      exact ⟨_, sampleRead_error h1⟩
    · cases h

/-- Only a Playing voice reads memory (44_mixer.md R211). -/
theorem mixVoice_error {s : State} {m : Mix} {v : Fin 8} {e : Fault} (h : mixVoice s m v = .error e) :
    (m.voices.get v).state = .playing ∧ MissesSample s.mem (m.voices.get v) e := by
  by_cases hp : (m.voices.get v).state = .playing
  · unfold mixVoice at h
    dsimp only at h
    rw [if_neg (by simp [hp]), if_pos hp] at h
    split at h
    · next hl =>
      cases h
      exact ⟨hp, lookup_error hl⟩
    · cases h
  · rw [mixVoice_quiet s m v hp] at h
    cases h

/-- Each voice's part of a frame reads the descriptor as it was before the frame. -/
theorem mixVoices_error {s : State} {l : List (Fin 8)} {m : Mix} {e : Fault} (hl : l.Nodup)
    (h : mixVoices s l m = .error e) :
    ∃ v ∈ l, (m.voices.get v).state = .playing ∧ MissesSample s.mem (m.voices.get v) e := by
  induction l generalizing m with
  | nil => cases h
  | cons w rest ih =>
    obtain ⟨hw, hrest⟩ := List.nodup_cons.1 hl
    unfold mixVoices at h
    split at h
    · next h1 =>
      cases h
      exact ⟨w, List.mem_cons_self, mixVoice_error h1⟩
    · next m1 h1 =>
      obtain ⟨v, hv, hmiss⟩ := ih hrest h
      have hne : v ≠ w := fun he => hw (he ▸ hv)
      rw [mixVoice_voices s m m1 w h1, Oct.get_set_of_ne _ _ hne] at hmiss
      exact ⟨v, List.mem_cons_of_mem w hv, hmiss⟩

/-- A frame completes, or a Playing voice misses a sample (20_memory.md R75 (a)). -/
theorem frameStep_completes_or_misses (s : State) :
    (∃ t, frameStep s = .next t) ∨
    (∃ f v, frameStep s = .fault f ∧ (s.voices.get v).state = .playing ∧ MissesSample s.mem (s.voices.get v) f) := by
  obtain ⟨f, herr, h⟩ | ⟨m, -, -, h⟩ := frameStep_cases s
  · obtain ⟨v, -, hmiss⟩ := mixVoices_error (by decide) herr
    exact .inr ⟨f, v, h, hmiss⟩
  · exact .inl ⟨_, h⟩

/-- Settles O53: a frame that is stuck misses a sample of a Playing voice, and a covered voice misses none. -/
theorem coveredFrameCompletes : Obligations.CoveredFrameCompletes := by
  intro s hs
  obtain h | ⟨f, v, -, hp, hmiss⟩ := frameStep_completes_or_misses s
  · exact h
  · obtain ⟨hb, hc⟩ := hs v hp
    exact absurd hmiss (not_missesSample_of_covered hb hc f)

/-! ## The stops of a step -/

theorem renderStep_completes_or_misses (s : State) :
    (∃ t, renderStep s = .next t) ∨
    (s.rBusy = true ∧ ∃ f v, renderStep s = .fault f ∧ MissesSample s.mem (s.voices.get v) f) := by
  obtain ⟨hb, h⟩ | ⟨c, rest, -, -, h⟩ | ⟨-, -, h⟩ := renderStep_cases s
  · rw [h]
    obtain hn | ⟨f, v, hf, -, hmiss⟩ := frameStep_completes_or_misses s
    · exact .inl hn
    · exact .inr ⟨hb, f, v, hf, hmiss⟩
  · exact .inl ⟨_, h⟩
  · exact .inl ⟨_, h⟩

/-- A step completes, or RENDER misses a sample in a callback: every event completes (60_exceptions.md R304). -/
theorem step_completes_or_misses (s : State) :
    (∃ t, step s = .next t) ∨
    (s.rBusy = true ∧ ∃ f v, step s = .fault f ∧ MissesSample s.mem (s.voices.get v) f) := by
  obtain ⟨ts, i, rest, -, -, h⟩ | ⟨ts, -, -, -, h⟩ | ⟨ts, -, h⟩ | ⟨ts, a, d, -, h⟩ := step_cases s <;> rw [h]
  · obtain ⟨t, ht, -⟩ := exec_effect i { s with turns := ts, inbox := rest }
    exact .inl ⟨t, ht⟩
  · exact renderStep_completes_or_misses { s with turns := ts }
  · exact renderStep_completes_or_misses { s with turns := ts }
  · exact .inl ⟨_, rfl⟩

/-- Settles O60: a step that does not complete is a frame of a callback, stuck at the word that a voice misses. -/
theorem onlyMissingMemoryStopsAStep : Obligations.OnlyMissingMemoryStopsAStep := by
  intro s
  obtain ⟨t, h⟩ | ⟨hb, f, v, h, i, hf, hnone⟩ := step_completes_or_misses s <;> rw [h]
  · exact ⟨nofun, nofun⟩
  · refine ⟨fun f' he => ?_, nofun⟩
    cases he
    exact ⟨hb, _, hf, hnone⟩

/-! ## The swap of samples -/

/-- Settles O54: the read by `sampleRead_of_none` and `sampleRead_of_some`, the write by the laws of `writeWord` and
`Voice.noteWrite`. -/
theorem sampleReadsAndSwaps : Obligations.SampleReadsAndSwaps := by
  refine ⟨fun mem draw voice site x f a ha => ?_, fun s ts a d hturn => ?_⟩
  · rw [← sampleAddr_natCast] at ha
    subst ha
    refine ⟨sampleRead_of_none draw voice site, fun w hw hr => ?_, fun w hw hr => ?_⟩
    · rw [sampleRead_of_some _ _ _ hw, if_pos hr]
    · rw [sampleRead_of_some _ _ _ hw, if_neg hr]
  · refine ⟨_, step_of_sample_turn hturn, readWord_writeWord_self _ a d,
      fun a' hne => readWord_writeWord_of_ne _ d hne, storeSample_frame _ a d, fun v => ?_⟩
    rw [storeSample_voice]
    exact ⟨noteWrite_frame _ a, noteWrite_suspended _ a, fun hs a' => mem_raced_noteWrite _ a a' hs⟩

end Sys2Proof.Machine

/-! SUPPORT. The codec of input events, said once: the header of a host access and its fields, which register an address
names (10_state.md R60 to R66), and that `decode` reads back the words `encode` writes (30_encoding.md R90 to R96,
R102). -/

namespace Sys2Proof

/-! ## The words of an event -/

theorem decode_of_header {h : Half} (hd : headerHasData h = false) (rest : List Half) :
    decode (h :: rest) = .ok (decodeEvent h 0) rest := by simp [decode, hd]

theorem decode_of_write {h : Half} (hd : headerHasData h = true) (lo hi : Half) (rest : List Half) :
    decode (h :: lo :: hi :: rest) = .ok (decodeEvent h (hi ++ lo)) rest := by simp [decode, hd]

theorem headerHasData_of_port_ne_zero {h : Half} (hp : headerPort h ≠ 0) : headerHasData h = false := by
  rw [headerHasData, beq_false_of_ne hp, Bool.false_and]

theorem decode_of_port_ne_zero {h : Half} (hp : headerPort h ≠ 0) (rest : List Half) :
    decode (h :: rest) = .ok (decodeEvent h 0) rest := decode_of_header (headerHasData_of_port_ne_zero hp) rest

/-- The words of a decoded sequence: a header alone, or the header of a host write and its data word (R102). -/
theorem decode_ok_cases {ws rest : List Half} {i : Instr} (h : decode ws = .ok i rest) :
    (∃ hd, ws = hd :: rest ∧ headerHasData hd = false ∧ i = decodeEvent hd 0) ∨
    (∃ hd lo hi, ws = hd :: lo :: hi :: rest ∧ headerHasData hd = true ∧ i = decodeEvent hd (hi ++ lo)) := by
  match ws with
  | [] => cases h
  | hd :: tail =>
    cases hdata : headerHasData hd with
    | false =>
      rw [decode_of_header hdata] at h
      cases h
      exact .inl ⟨hd, rfl, hdata, rfl⟩
    | true =>
      match tail with
      | lo :: hi :: tail' =>
        rw [decode_of_write hdata] at h
        cases h
        exact .inr ⟨hd, lo, hi, rfl, hdata, rfl⟩
      | [] | [_] => simp [decode, hdata] at h

/-! ## The event of a header, by its port (R90) -/

section
variable {h : Half}

theorem decodeEvent_host (hp : headerPort h = 0) (d : Word) :
    decodeEvent h d = decodeHost (h.getLsbD 12) (h.extractLsb' 0 12) d := by simp [decodeEvent, hp]

theorem decodeEvent_midi (hp : headerPort h = 1) (d : Word) : decodeEvent h d = decodeMidi (h.extractLsb' 0 8) := by
  simp [decodeEvent, hp]

theorem decodeEvent_tick (hp : headerPort h = 2) (d : Word) :
    decodeEvent h d = if h.getLsbD 3 then .tickFail else .tick (h.getLsbD 0) (h.getLsbD 1) (h.getLsbD 2) := by
  simp [decodeEvent, hp]

theorem decodeEvent_cb (hp : headerPort h = 3) (d : Word) :
    decodeEvent h d = if h.getLsbD 8 then .cbFail else .cb (h.extractLsb' 0 8) := by simp [decodeEvent, hp]

theorem decodeEvent_reset (hp : headerPort h = 4) (d : Word) : decodeEvent h d = .reset := by simp [decodeEvent, hp]

theorem decodeEvent_port5 (hp : headerPort h = 5) (d : Word) : decodeEvent h d = .reservedPort5 := by
  simp [decodeEvent, hp]

theorem decodeEvent_port6 (hp : headerPort h = 6) (d : Word) : decodeEvent h d = .reservedPort6 := by
  simp [decodeEvent, hp]

theorem decodeEvent_port7 (hp : headerPort h = 7) (d : Word) : decodeEvent h d = .reservedPort7 := by
  simp [decodeEvent, hp]

end

/-! ## The header of a host access (R91) -/

/-- The header with port 000, direction `w` and address `a`. -/
def hostHeader (w : Bool) (a : BitVec 12) : Half := ((0 : BitVec 3) ++ BitVec.ofBool w) ++ a

/-- The words of a host access: a read has no data word. -/
def hostWords (w : Bool) (a : BitVec 12) (d : Word) : List Half := if w then encodeWrite a d else encodeRead a

theorem encodeRead_eq (a : BitVec 12) : encodeRead a = [hostHeader false a] := rfl

theorem encodeWrite_eq (a : BitVec 12) (d : Word) :
    encodeWrite a d = [hostHeader true a, d.extractLsb' 0 16, d.extractLsb' 16 16] := rfl

@[simp] theorem headerPort_hostHeader (w : Bool) (a : BitVec 12) : headerPort (hostHeader w a) = 0 :=
  (BitVec.extractLsb'_append_eq_of_le (by decide)).trans BitVec.extractLsb'_append_eq_left

@[simp] theorem getLsbD_hostHeader (w : Bool) (a : BitVec 12) : (hostHeader w a).getLsbD 12 = w :=
  BitVec.getLsbD_append.trans (by cases w <;> rfl)

@[simp] theorem extractLsb'_hostHeader (w : Bool) (a : BitVec 12) : (hostHeader w a).extractLsb' 0 12 = a :=
  BitVec.extractLsb'_append_eq_right

@[simp] theorem headerHasData_hostHeader (w : Bool) (a : BitVec 12) : headerHasData (hostHeader w a) = w := by
  rw [headerHasData, headerPort_hostHeader, getLsbD_hostHeader, beq_self_eq_true, Bool.true_and]

/-- A header of port 000 is its direction and its address, and nothing else. -/
theorem eq_hostHeader {h : Half} (hp : headerPort h = 0) : h = hostHeader (h.getLsbD 12) (h.extractLsb' 0 12) := by
  have hbit : h.extractLsb' 12 1 = BitVec.ofBool (h.getLsbD 12) := by
    rw [BitVec.getLsbD_eq_extractLsb']
    generalize h.extractLsb' 12 1 = b
    revert b; decide
  have hhigh : h.extractLsb' 12 4 = (0 : BitVec 3) ++ BitVec.ofBool (h.getLsbD 12) := by
    rw [← hbit, ← hp]
    exact (BitVec.extractLsb'_append_extractLsb'_eq_extractLsb' (start₁ := 12) (len₁ := 1) (len₂ := 3) rfl).symm
  calc h = h.extractLsb' 12 4 ++ h.extractLsb' 0 12 := (BitVec.extractLsb'_append_extractLsb' (w := 4) (len := 12)).symm
    _ = _ := by rw [hhigh]; rfl

@[simp] theorem decodeEvent_hostHeader (w : Bool) (a : BitVec 12) (d : Word) :
    decodeEvent (hostHeader w a) d = decodeHost w a d := by
  rw [decodeEvent_host (headerPort_hostHeader w a), getLsbD_hostHeader, extractLsb'_hostHeader]

theorem decode_encodeRead (a : BitVec 12) (rest : List Half) :
    decode (encodeRead a ++ rest) = .ok (decodeHost false a 0) rest := by
  rw [← decodeEvent_hostHeader, encodeRead_eq]
  exact decode_of_header (headerHasData_hostHeader false a) rest

theorem decode_encodeWrite (a : BitVec 12) (d : Word) (rest : List Half) :
    decode (encodeWrite a d ++ rest) = .ok (decodeHost true a d) rest := by
  have hdata : d.extractLsb' 16 16 ++ d.extractLsb' 0 16 = d := BitVec.extractLsb'_append_extractLsb'
  rw [← decodeEvent_hostHeader, encodeWrite_eq]
  conv_rhs => rw [← hdata]
  exact decode_of_write (headerHasData_hostHeader true a) _ _ rest

/-! ## The register that an address names (10_state.md R60 to R66) -/

/-- The access to the register at address `a`; none where `a` is reserved. -/
def hostRegister (w : Bool) (a : BitVec 12) (d : Word) : Option Instr :=
  if a.extractLsb' 8 4 = 1 then decodeVoice w (a.extractLsb' 5 3).toFin (a.extractLsb' 0 5).toNat d
  else decodeGlobal w a.toNat d

theorem decodeHost_of_some {w : Bool} {a : BitVec 12} {d : Word} {i : Instr} (h : hostRegister w a d = some i) :
    decodeHost w a d = i := by
  unfold hostRegister at h
  simp only [decodeHost, h]

theorem decodeHost_of_none {w : Bool} {a : BitVec 12} {d : Word} (h : hostRegister w a d = none) :
    decodeHost w a d = .reservedAccess w a (if w then d else 0) := by
  unfold hostRegister at h
  simp only [decodeHost, h]

theorem hostRegister_voiceAddr (w : Bool) (v : Fin 8) (off : BitVec 5) (d : Word) :
    hostRegister w (voiceAddr v off) d = decodeVoice w v off.toNat d := by
  have hpage : (voiceAddr v off).extractLsb' 8 4 = 1 :=
    (BitVec.extractLsb'_append_eq_of_le (by decide)).trans BitVec.extractLsb'_append_eq_left
  have hvoice : (voiceAddr v off).extractLsb' 5 3 = BitVec.ofFin (w := 3) v :=
    (BitVec.extractLsb'_append_eq_of_le (by decide)).trans BitVec.extractLsb'_append_eq_right
  have hoff : (voiceAddr v off).extractLsb' 0 5 = off := BitVec.extractLsb'_append_eq_right
  rw [hostRegister, if_pos hpage, hvoice, hoff]

theorem hostRegister_trigCnt (w : Bool) (i : Fin 8) (d : Word) :
    hostRegister w (octAddr 0x05 i) d = readOrWrite w (.rdTrigCnt i) (.wrTrigCnt i d) := by
  fin_cases i <;> rfl

theorem hostRegister_cv (w : Bool) (k : Fin 8) (d : Word) :
    hostRegister w (octAddr 0x06 k) d = readOrWrite w (.rdCv k) (.wrCv k d) := by
  fin_cases k <;> rfl

/-- The addresses outside the voice file that name no register (10_state.md R66). -/
theorem decodeGlobal_eq_none_iff (w : Bool) (n : Nat) (d : Word) : decodeGlobal w n d = none ↔
    0x002 ≤ n ∧ n ≤ 0x00F ∨ 0x01A ≤ n ∧ n ≤ 0x01F ∨ 0x024 ≤ n ∧ n ≤ 0x027 ∨ 0x038 ≤ n ∧ n ≤ 0x03F ∨ 0x042 ≤ n := by
  unfold decodeGlobal readOrWrite
  split
  case h_35 =>
    refine iff_of_true rfl ?_
    simp only [imp_false] at *
    omega
  all_goals simp

theorem decodeVoice_eq_none_iff (w : Bool) (v : Fin 8) (off : Nat) (d : Word) :
    decodeVoice w v off d = none ↔ 0x14 ≤ off := by
  unfold decodeVoice readOrWrite
  split
  case h_21 =>
    refine iff_of_true rfl ?_
    simp only [imp_false] at *
    omega
  all_goals simp

/-- The register map of R60 to R65 and the reserved addresses of R66 are exclusive and total. -/
theorem hostRegister_eq_none_iff (w : Bool) (a : BitVec 12) (d : Word) :
    hostRegister w a d = none ↔ isReservedAddr a = true := by
  have hlt := a.isLt
  have hpage : a.extractLsb' 8 4 = 1 ↔ a.toNat / 256 = 1 := by
    rw [← BitVec.toNat_inj, BitVec.extractLsb'_toNat, Nat.shiftRight_eq_div_pow,
      show (1 : BitVec 4).toNat = 1 from rfl]
    omega
  have hoff : (a.extractLsb' 0 5).toNat = a.toNat % 32 := by simp
  unfold hostRegister isReservedAddr
  simp only [hpage, hoff]
  split
  · rw [decodeVoice_eq_none_iff]
    simp only [Bool.or_eq_true, Bool.and_eq_true, decide_eq_true_eq]
    omega
  · rw [decodeGlobal_eq_none_iff]
    simp only [Bool.or_eq_true, Bool.and_eq_true, decide_eq_true_eq]
    omega

/-- A register outside the voice file has the words of its address; its access is always well-formed. -/
theorem encode_of_decodeGlobal {w : Bool} {n : Nat} {d : Word} {i : Instr} (h : decodeGlobal w n d = some i) :
    encode i = hostWords w (BitVec.ofNat 12 n) d ∧ WellFormed i = true := by
  unfold decodeGlobal at h
  split at h
  all_goals cases h
  all_goals cases w <;> exact ⟨rfl, rfl⟩

/-- A register of a voice has the words of its address; its access is always well-formed. -/
theorem encode_of_decodeVoice {w : Bool} {v : Fin 8} {off : Nat} {d : Word} {i : Instr}
    (h : decodeVoice w v off d = some i) :
    encode i = hostWords w (voiceAddr v (BitVec.ofNat 5 off)) d ∧ WellFormed i = true := by
  unfold decodeVoice at h
  split at h
  all_goals cases h
  all_goals cases w <;> exact ⟨rfl, rfl⟩

/-- An address of page 1 is that of its voice and offset (R91, 10_state.md R65). -/
theorem eq_voiceAddr {a : BitVec 12} (hp : a.extractLsb' 8 4 = 1) :
    a = voiceAddr (a.extractLsb' 5 3).toFin (a.extractLsb' 0 5) := by
  have hhigh : a.extractLsb' 5 7 = (1 : BitVec 4) ++ a.extractLsb' 5 3 := by
    rw [← hp]
    exact (BitVec.extractLsb'_append_extractLsb'_eq_extractLsb' (start₁ := 5) (len₁ := 3) (len₂ := 4) rfl).symm
  calc a = a.extractLsb' 5 7 ++ a.extractLsb' 0 5 := (BitVec.extractLsb'_append_extractLsb' (w := 7) (len := 5)).symm
    _ = _ := by rw [hhigh]; rfl

/-- The words of the event of a host access are those of the access, and the event is well-formed. -/
theorem encode_decodeHost (w : Bool) (a : BitVec 12) (d : Word) :
    encode (decodeHost w a d) = hostWords w a d ∧ WellFormed (decodeHost w a d) = true := by
  cases h : hostRegister w a d with
  | none =>
    have hres := (hostRegister_eq_none_iff w a d).1 h
    rw [decodeHost_of_none h]
    cases w <;> simp [encode, hostWords, WellFormed, hres]
  | some i =>
    rw [decodeHost_of_some h]
    unfold hostRegister at h
    split at h
    · next hp =>
      have hi := encode_of_decodeVoice h
      rwa [BitVec.ofNat_toNat, BitVec.setWidth_eq, ← eq_voiceAddr hp] at hi
    · have hi := encode_of_decodeGlobal h
      rwa [BitVec.ofNat_toNat, BitVec.setWidth_eq] at hi

/-! ## MIDI bytes (R92) -/

theorem decode_encodeMidi (b : Byte) (rest : List Half) : decode (encodeMidi b ++ rest) = .ok (decodeMidi b) rest := by
  have hp : headerPort ((0x20 : BitVec 8) ++ b) = 1 := BitVec.extractLsb'_append_eq_of_le (by decide)
  have hb : ((0x20 : BitVec 8) ++ b).extractLsb' 0 8 = b := BitVec.extractLsb'_append_eq_right
  exact (decode_of_port_ne_zero (by rw [hp]; decide) rest).trans (by rw [decodeEvent_midi hp, hb])

/-- No bit of a MIDI byte is lost: a check of its 256 values. -/
theorem encode_decodeMidi : ∀ b : Byte, encode (decodeMidi b) = encodeMidi b ∧ WellFormed (decodeMidi b) = true := by
  decide

/-! ## Decode after encode -/

section
variable {a : BitVec 12} {d : Word} {i : Instr} {b : Byte} (rest : List Half)

theorem decode_encodeRead_register (h : hostRegister false a 0 = some i) :
    decode (encodeRead a ++ rest) = .ok i rest := by
  rw [decode_encodeRead, decodeHost_of_some h]

theorem decode_encodeWrite_register (h : hostRegister true a d = some i) :
    decode (encodeWrite a d ++ rest) = .ok i rest := by
  rw [decode_encodeWrite, decodeHost_of_some h]

theorem decode_encodeMidi_byte (h : decodeMidi b = i) : decode (encodeMidi b ++ rest) = .ok i rest := by
  rw [decode_encodeMidi, h]

theorem decode_encode_tick (a b btn : Bool) : decode (encode (.tick a b btn) ++ rest) = .ok (.tick a b btn) rest := by
  cases a <;> cases b <;> cases btn <;> rfl

theorem decode_encode_cb (t : Byte) : decode (encode (.cb t) ++ rest) = .ok (.cb t) rest := by
  have hp : headerPort ((0x60 : BitVec 8) ++ t) = 3 := BitVec.extractLsb'_append_eq_of_le (by decide)
  have herr : ((0x60 : BitVec 8) ++ t).getLsbD 8 = false := BitVec.getLsbD_append
  have ht : ((0x60 : BitVec 8) ++ t).extractLsb' 0 8 = t := BitVec.extractLsb'_append_eq_right
  exact (decode_of_port_ne_zero (by rw [hp]; decide) rest).trans
    (by rw [decodeEvent_cb hp, herr, ht, if_neg Bool.false_ne_true])

theorem decodeHost_reserved (w : Bool) (h : isReservedAddr a = true) :
    decodeHost w a d = .reservedAccess w a (if w then d else 0) :=
  decodeHost_of_none ((hostRegister_eq_none_iff w a d).2 h)

/-- A reserved read carries no data word, so nothing of it is lost. -/
theorem decode_encode_reserved {w : Bool} (h : WellFormed (.reservedAccess w a d) = true) :
    decode (encode (.reservedAccess w a d) ++ rest) = .ok (.reservedAccess w a d) rest := by
  obtain ⟨hres, hd⟩ := Bool.and_eq_true_iff.1 h
  cases w with
  | true => exact (decode_encodeWrite a d rest).trans (by rw [decodeHost_reserved true hres, if_pos rfl])
  | false =>
    obtain rfl : d = 0 := eq_of_beq hd
    exact (decode_encodeRead a rest).trans (by rw [decodeHost_reserved false hres, ite_self])

end

/-- Settles O1, by the format of the instruction: a host access is read back because its register is the one its address
names, a MIDI byte because its class is that of its bits (of which at most seven vary), every other event by the bits of
its header. -/
theorem decodeEncodeRoundTrip : Obligations.DecodeEncodeRoundTrip := fun i rest hwf =>
  match i, hwf with
  | .reset, _ | .tickFail, _ | .cbFail, _ | .reservedPort5, _ | .reservedPort6, _ | .reservedPort7, _ => rfl
  | .tick a b btn, _ => decode_encode_tick rest a b btn
  | .cb t, _ => decode_encode_cb rest t
  | .midiData b, _ | .midiNoteOffStatus c, _ | .midiNoteOnStatus c, _ | .midiPolyPressureStatus c, _
  | .midiControlChangeStatus c, _ | .midiProgramChangeStatus c, _ | .midiChannelPressureStatus c, _
  | .midiPitchBendStatus c, _ | .midiSystemF0F7 n, _ | .midiSystemF8FB n, _ | .midiSystemFCFD n, _ | .midiSystemFE, _
  | .midiMetaStart, _ => decode_encodeMidi_byte rest (by decide +revert)
  | .rdErr, _ | .rdRstat, _ | .rdEncCtrl, _ | .rdEncValue, _ | .rdEncButton, _ | .rdEncDelta, _ | .rdEncAccel, _
  | .rdEncHist, _ | .rdEncKeydown, _ | .rdEncDclk, _ | .rdEncPresc, _ | .rdEncBtnpeek, _ | .rdTrigRaw, _
  | .rdTrigRise, _ | .rdTrigReleased, _ | .rdTrigSteady, _ | .rdMidiPstate, _ | .rdMidiMeta, _ =>
    decode_encodeRead_register rest rfl
  | .wrErr _, _ | .wrRstat _, _ | .wrEncCtrl _, _ | .wrEncValue _, _ | .wrEncButton _, _ | .wrEncDelta _, _
  | .wrEncAccel _, _ | .wrEncHist _, _ | .wrEncKeydown _, _ | .wrEncDclk _, _ | .wrEncPresc _, _ | .wrEncBtnpeek _, _
  | .wrTrigRaw _, _ | .wrTrigRise _, _ | .wrTrigReleased _, _ | .wrTrigSteady _, _ | .wrMidiPstate _, _
  | .wrMidiMeta _, _ => decode_encodeWrite_register rest rfl
  | .rdTrigCnt i, _ => decode_encodeRead_register rest (hostRegister_trigCnt false i 0)
  | .wrTrigCnt i d, _ => decode_encodeWrite_register rest (hostRegister_trigCnt true i d)
  | .rdCv k, _ => decode_encodeRead_register rest (hostRegister_cv false k 0)
  | .wrCv k d, _ => decode_encodeWrite_register rest (hostRegister_cv true k d)
  | .rdVState v, _ | .rdVMode v, _ | .rdVPhase v, _ | .rdVPhaseinc v, _ | .rdVSpeed v, _ | .rdVPitchf v, _
  | .rdVTranspose v, _ | .rdVLevel v, _ | .rdVPan v, _ | .rdVMidich v, _ | .rdVMidinote v, _ | .rdVNativenote v, _
  | .rdVMidimode v, _ | .rdVCvrLevel v, _ | .rdVCvrPan v, _ | .rdVCvrSpeed v, _ | .rdVCvrPitch v, _
  | .rdVBufBase v, _ | .rdVBufFrames v, _ | .rdVBufChannels v, _ =>
    decode_encodeRead_register rest (hostRegister_voiceAddr false v _ 0)
  | .wrVState v d, _ | .wrVMode v d, _ | .wrVPhase v d, _ | .wrVPhaseinc v d, _ | .wrVSpeed v d, _
  | .wrVPitchf v d, _ | .wrVTranspose v d, _ | .wrVLevel v d, _ | .wrVPan v d, _ | .wrVMidich v d, _
  | .wrVMidinote v d, _ | .wrVNativenote v d, _ | .wrVMidimode v d, _ | .wrVCvrLevel v d, _ | .wrVCvrPan v d, _
  | .wrVCvrSpeed v d, _ | .wrVCvrPitch v d, _ | .wrVBufBase v d, _ | .wrVBufFrames v d, _ | .wrVBufChannels v d, _ =>
    decode_encodeWrite_register rest (hostRegister_voiceAddr true v _ d)
  | .reservedAccess _ _ _, h => decode_encode_reserved rest h

/-- Two well-formed instructions with the same words are the same (R90 to R96). -/
theorem encode_injective {i j : Instr} (hi : WellFormed i = true) (hj : WellFormed j = true) (h : encode i = encode j) :
    i = j := by
  have hdi := decodeEncodeRoundTrip i [] hi
  rw [h, decodeEncodeRoundTrip j [] hj] at hdi
  cases hdi
  rfl

/-! ## What the decoder answers -/

theorem headerPort_cases (h : Half) : headerPort h = 0 ∨ headerPort h = 1 ∨ headerPort h = 2 ∨ headerPort h = 3 ∨
    headerPort h = 4 ∨ headerPort h = 5 ∨ headerPort h = 6 ∨ headerPort h = 7 := by
  generalize headerPort h = p
  revert p; decide

/-- The event of any header is well-formed, and its length is the one the header tells (R102). -/
theorem decodeEvent_wellFormed_length (h : Half) (d : Word) : WellFormed (decodeEvent h d) = true ∧
    (encode (decodeEvent h d)).length = if headerHasData h then 3 else 1 := by
  by_cases hp0 : headerPort h = 0
  · obtain ⟨henc, hwf⟩ := encode_decodeHost (h.getLsbD 12) (h.extractLsb' 0 12) d
    rw [eq_hostHeader hp0, decodeEvent_hostHeader, headerHasData_hostHeader, henc]
    refine ⟨hwf, ?_⟩
    cases h.getLsbD 12 <;> rfl
  rw [headerHasData_of_port_ne_zero hp0, if_neg Bool.false_ne_true]
  obtain hp | hp | hp | hp | hp | hp | hp | hp := headerPort_cases h
  · exact absurd hp hp0
  · obtain ⟨henc, hwf⟩ := encode_decodeMidi (h.extractLsb' 0 8)
    rw [decodeEvent_midi hp, henc]
    exact ⟨hwf, rfl⟩
  · rw [decodeEvent_tick hp]
    split <;> exact ⟨rfl, rfl⟩
  · rw [decodeEvent_cb hp]
    split <;> exact ⟨rfl, rfl⟩
  · rw [decodeEvent_reset hp]
    exact ⟨rfl, rfl⟩
  · rw [decodeEvent_port5 hp]
    exact ⟨rfl, rfl⟩
  · rw [decodeEvent_port6 hp]
    exact ⟨rfl, rfl⟩
  · rw [decodeEvent_port7 hp]
    exact ⟨rfl, rfl⟩

/-- Settles O2: the words a decoded event takes are those its header tells, and so is the length of its encoding. -/
theorem decodedIsWellFormed : Obligations.DecodedIsWellFormed := by
  intro ws i rest h
  obtain ⟨hd, rfl, hdata, rfl⟩ | ⟨hd, lo, hi, rfl, hdata, rfl⟩ := decode_ok_cases h
  · obtain ⟨hwf, hlen⟩ := decodeEvent_wellFormed_length hd 0
    exact ⟨hwf, by rw [hlen, hdata, if_neg Bool.false_ne_true, List.length_cons, Nat.add_comm]⟩
  · obtain ⟨hwf, hlen⟩ := decodeEvent_wellFormed_length hd (hi ++ lo)
    exact ⟨hwf, by rw [hlen, hdata, if_pos rfl]; simp only [List.length_cons]; omega⟩

/-! ## Ignored header bits -/

theorem getLsbD_eq_of_extractLsb'_eq {w n i : Nat} {x y : BitVec w} (h : x.extractLsb' 0 n = y.extractLsb' 0 n)
    (hi : i < n) : x.getLsbD i = y.getLsbD i := by
  have := congrArg (BitVec.getLsbD · i) h
  simpa [BitVec.getLsbD_extractLsb', hi] using this

/-- On the ports 100 to 111 no other header bit is used, and no data word (R95, R96). -/
theorem decodeEvent_eq_of_high_port {h h' : Half} (hp : headerPort h = headerPort h') (h4 : 4 ≤ (headerPort h).toNat)
    (d d' : Word) : decodeEvent h d = decodeEvent h' d' := by
  unfold decodeEvent
  rw [← hp]
  generalize (headerPort h).toNat = n at h4
  match n, h4 with
  | 4, _ | 5, _ | 6, _ | _ + 7, _ => rfl

/-- On port 000 the words of the event hold the whole header: every bit is used (R91). -/
theorem encode_decodeEvent_host {h : Half} (hp : headerPort h = 0) (d : Word) :
    encode (decodeEvent h d) = hostWords (h.getLsbD 12) (h.extractLsb' 0 12) d := by
  rw [decodeEvent_host hp]
  obtain ⟨henc, -⟩ := encode_decodeHost (h.getLsbD 12) (h.extractLsb' 0 12) d
  exact henc

theorem encode_decodeEvent_read {h : Half} (hp : headerPort h = 0) (hw : h.getLsbD 12 = false) (d : Word) :
    encode (decodeEvent h d) = [h] := by
  rw [encode_decodeEvent_host hp, hw]
  calc hostWords false (h.extractLsb' 0 12) d = [hostHeader false (h.extractLsb' 0 12)] := encodeRead_eq _
    _ = [h] := by rw [← hw, ← eq_hostHeader hp]

theorem encode_decodeEvent_write {h : Half} (hp : headerPort h = 0) (hw : h.getLsbD 12 = true) (d : Word) :
    encode (decodeEvent h d) = [h, d.extractLsb' 0 16, d.extractLsb' 16 16] := by
  rw [encode_decodeEvent_host hp, hw]
  calc hostWords true (h.extractLsb' 0 12) d =
      [hostHeader true (h.extractLsb' 0 12), d.extractLsb' 0 16, d.extractLsb' 16 16] := encodeWrite_eq _ d
    _ = _ := by rw [← hw, ← eq_hostHeader hp]

/-- A read's event is the same whatever data word is given: both have the words of the header alone. -/
theorem decodeEvent_read_ignores_data {h : Half} (hp : headerPort h = 0) (hw : h.getLsbD 12 = false) (d d' : Word) :
    decodeEvent h d = decodeEvent h d' := by
  obtain ⟨hwf, -⟩ := decodeEvent_wellFormed_length h d
  obtain ⟨hwf', -⟩ := decodeEvent_wellFormed_length h d'
  exact encode_injective hwf hwf' (by rw [encode_decodeEvent_read hp hw, encode_decodeEvent_read hp hw])

/-- Settles O4: the event of each port reads no header bit but its format's, and the words of a host access hold the
whole header. -/
theorem ignoredHeaderBits : Obligations.IgnoredHeaderBits := by
  refine ⟨fun h h' d hp => ⟨fun h1 hb => ?_, fun h2 hb => ?_, fun h2 he he' => ?_, fun h3 hb => ?_,
      fun h3 he he' => ?_, fun h4 => decodeEvent_eq_of_high_port hp h4 d d⟩,
    fun h hp => ⟨fun hw d => ?_, fun hw d => ?_⟩⟩
  · rw [decodeEvent_midi h1, decodeEvent_midi (hp ▸ h1), hb]
  · have hbit : ∀ i < 4, h.getLsbD i = h'.getLsbD i := fun i hi => getLsbD_eq_of_extractLsb'_eq hb hi
    rw [decodeEvent_tick h2, decodeEvent_tick (hp ▸ h2), hbit 0 (by omega), hbit 1 (by omega), hbit 2 (by omega),
      hbit 3 (by omega)]
  · rw [decodeEvent_tick h2, decodeEvent_tick (hp ▸ h2), he, he', if_pos rfl, if_pos rfl]
  · have hlow : h.extractLsb' 0 8 = h'.extractLsb' 0 8 := by
      rw [← BitVec.extractLsb'_extractLsb'_of_le (len' := 9) (by decide), hb,
        BitVec.extractLsb'_extractLsb'_of_le (by decide)]
    rw [decodeEvent_cb h3, decodeEvent_cb (hp ▸ h3), hlow, getLsbD_eq_of_extractLsb'_eq hb (by omega : 8 < 9)]
  · rw [decodeEvent_cb h3, decodeEvent_cb (hp ▸ h3), he, he', if_pos rfl, if_pos rfl]
  · exact ⟨decodeEvent_read_ignores_data hp hw d 0, encode_decodeEvent_read hp hw d⟩
  · rw [encode_decodeEvent_write hp hw]
    exact ⟨rfl, rfl⟩

end Sys2Proof

namespace Sys2Proof.Machine

theorem exec_reservedPort {h : Half} (h5 : 5 ≤ (headerPort h).toNat) (d : Word) (s : State) :
    exec (decodeEvent h d) s = .next s := by
  unfold decodeEvent
  generalize (headerPort h).toNat = n at h5
  match n, h5 with
  | 5, _ | 6, _ | _ + 7, _ => rfl

/-- Settles O5: the event of a reserved port is whole with its header, and its step gives the state back. -/
theorem reservedPortsHaveNoEffect : Obligations.ReservedPortsHaveNoEffect := by
  refine ⟨fun _ => rfl, fun _ => rfl, fun _ => rfl, fun h rest s h5 hturns hinbox => ?_⟩
  have hp : headerPort h ≠ 0 := by
    intro h0
    rw [h0] at h5
    exact absurd h5 (by decide)
  rw [step_of_no_turn hturns, eventStep_of_ok (hinbox ▸ decode_of_port_ne_zero hp rest)]
  exact exec_reservedPort h5 0 _

end Sys2Proof.Machine

/-! SUPPORT. An encoder tick as one equation per part (40_encoder.md R120): what the selected decoder counts and what
becomes its history (R122, R123), the level (R124), and which fields the prescaler and the button check write (R125,
R126). -/

namespace Sys2Proof.Machine

/-! ## What a decoder counts -/

/-- What the two-bit decoder counts from one code of the pins to the next (40_encoder.md R122). -/
def grayTurn (prev code : Nat) : Int :=
  if code = (prev + 1) % 4 then 1 else if prev = (code + 1) % 4 then -1 else 0

/-- What the table decoder counts at a history of two readings of the pins (40_encoder.md R123). -/
def tableTurn (hist : BitVec 4) : Int := quadTable.getD hist.toNat 0

/-- What the selected decoder counts at the levels the encoder holds (40_encoder.md R122, R123). -/
def Encoder.turn (c : Encoder) : Int :=
  if c.primed then
    if c.strategy then tableTurn (c.hist.extractLsb' 0 2 ++ rawCode c.rawA c.rawB)
    else grayTurn (c.hist.toNat % 4) (grayCode c.rawA c.rawB).toNat
  else 0

/-- The history that the selected decoder leaves (40_encoder.md R122, R123). -/
def Encoder.nextHist (c : Encoder) : BitVec 4 :=
  if c.strategy then (if c.primed then c.hist.extractLsb' 0 2 else rawCode c.rawA c.rawB) ++ rawCode c.rawA c.rawB
  else if c.primed = true ∧ c.turn = 0 then c.hist
  else grayCode c.rawA c.rawB

/-- The encoder and the step flag that a decoder gives. -/
def Encoder.counted (c : Encoder) : Encoder × Bool :=
  ({ c with delta := c.delta + BitVec.ofInt 16 c.turn, hist := c.nextHist, primed := true }, decide (c.turn ≠ 0))

theorem Encoder.turn_of_unprimed {c : Encoder} (hp : c.primed = false) : c.turn = 0 := by simp [Encoder.turn, hp]

theorem Encoder.turn_of_gray {c : Encoder} (hs : c.strategy = false) (hp : c.primed = true) :
    c.turn = grayTurn (c.hist.toNat % 4) (grayCode c.rawA c.rawB).toNat := by simp [Encoder.turn, hs, hp]

theorem Encoder.turn_of_table {c : Encoder} (hs : c.strategy = true) (hp : c.primed = true) :
    c.turn = tableTurn (c.hist.extractLsb' 0 2 ++ rawCode c.rawA c.rawB) := by simp [Encoder.turn, hs, hp]

theorem Encoder.nextHist_of_gray_unprimed {c : Encoder} (hs : c.strategy = false) (hp : c.primed = false) :
    c.nextHist = grayCode c.rawA c.rawB := by simp [Encoder.nextHist, hs, hp]

theorem Encoder.nextHist_of_gray {c : Encoder} (hs : c.strategy = false) (hp : c.primed = true) :
    c.nextHist = if c.turn = 0 then c.hist else grayCode c.rawA c.rawB := by simp [Encoder.nextHist, hs, hp]

theorem Encoder.nextHist_of_table_unprimed {c : Encoder} (hs : c.strategy = true) (hp : c.primed = false) :
    c.nextHist = rawCode c.rawA c.rawB ++ rawCode c.rawA c.rawB := by simp [Encoder.nextHist, hs, hp]

theorem Encoder.nextHist_of_table {c : Encoder} (hs : c.strategy = true) (hp : c.primed = true) :
    c.nextHist = c.hist.extractLsb' 0 2 ++ rawCode c.rawA c.rawB := by simp [Encoder.nextHist, hs, hp]

/-- No tick counts more than one step: a change of the delta shows (40_encoder.md R122, R123). -/
theorem Encoder.turn_cases (c : Encoder) : c.turn = 0 ∨ c.turn = 1 ∨ c.turn = -1 := by
  have htable : ∀ h : BitVec 4, tableTurn h = 0 ∨ tableTurn h = 1 ∨ tableTurn h = -1 := by decide
  unfold Encoder.turn
  split
  · split
    · exact htable _
    · unfold grayTurn
      split
      · exact .inr (.inl rfl)
      · split
        · exact .inr (.inr rfl)
        · exact .inl rfl
  · exact .inl rfl

/-- The low bit of Decode2's difference says whether the codes are neighbours, and the next bit which way. -/
theorem grayTurn_eq_diff : ∀ (hist : BitVec 4) (a b : Bool),
    let diff : BitVec 8 := (hist.extractLsb' 0 2).setWidth 8 - (grayCode a b).setWidth 8
    let turn := grayTurn (hist.toNat % 4) (grayCode a b).toNat
    if diff.getLsbD 0 then turn ≠ 0 ∧ (diff &&& 2).setWidth 16 - 1 = BitVec.ofInt 16 turn else turn = 0 := by decide

theorem decode2_eq {c : Encoder} (hs : c.strategy = false) : decode2 c.rawA c.rawB c = c.counted := by
  unfold decode2 Encoder.counted
  dsimp only
  cases hp : c.primed with
  | false =>
    rw [if_pos (by decide), c.nextHist_of_gray_unprimed hs hp, c.turn_of_unprimed hp]
    simp
  | true =>
    have hd := grayTurn_eq_diff c.hist c.rawA c.rawB
    rw [if_neg (by decide), c.nextHist_of_gray hs hp]
    dsimp only at hd
    rw [← c.turn_of_gray hs hp] at hd
    split at hd
    · next h =>
      obtain ⟨hne, heq⟩ := hd
      rw [if_pos h, heq, if_neg hne, decide_eq_true hne]
    · next h =>
      rw [if_neg h, hd, ← hp]
      simp

theorem decode16_eq {c : Encoder} (hs : c.strategy = true) : decode16 c.rawA c.rawB c = c.counted := by
  unfold decode16 Encoder.counted
  dsimp only
  cases hp : c.primed with
  | false =>
    rw [if_pos (by decide), c.nextHist_of_table_unprimed hs hp, c.turn_of_unprimed hp]
    simp
  | true =>
    rw [if_neg (by decide), c.nextHist_of_table hs hp, ← tableTurn, ← c.turn_of_table hs hp]
    split
    · next h => simp [h]
    · next h => simp [h]

/-- Either decoder adds its turn to the delta, and a step occurred where that is not 0. -/
theorem decodePins_eq (c : Encoder) : decodePins c = c.counted := by
  unfold decodePins
  split
  · next hs => exact decode16_eq hs
  · next hs => exact decode2_eq (by simpa using hs)

/-! ## The two halves of a tick -/

/-- The encoder after the decoder's half of a tick: decay, decode, and bump on a step (40_encoder.md R120). -/
def Encoder.decoded (p : Params) (c : Encoder) : Encoder :=
  { c with
    delta := c.delta + BitVec.ofInt 16 c.turn
    accel := (if c.turn = 0 then accelDecay p c else accelBump p (accelDecay p c)).accel
    hist := c.nextHist
    primed := true }

theorem tickEncoder_eq (p : Params) (a b btn failed : Bool) (c : Encoder) :
    tickEncoder p a b btn failed c = prescale p ((pinSample a b btn failed c).decoded p) := by
  unfold tickEncoder
  generalize pinSample a b btn failed c = c'
  have ht : (accelDecay p c').turn = c'.turn := rfl
  rw [decodePins_eq, Encoder.counted, ht, Encoder.decoded]
  by_cases h : c'.turn = 0
  · simp only [h, ne_eq, not_true_eq_false, decide_false, Bool.false_eq_true, if_false, if_true]
    rfl
  · simp only [h, ne_eq, not_false_eq_true, decide_true, if_true, if_false]
    rfl

theorem buttonDown_frame (p : Params) (c : Encoder) :
    buttonDown p c = { c with keyDown := (buttonDown p c).keyDown, button := (buttonDown p c).button } := rfl

theorem windowCountdown_frame (c : Encoder) :
    windowCountdown c = { c with dclk := (windowCountdown c).dclk, button := (windowCountdown c).button } := by
  unfold windowCountdown
  split <;> rfl

theorem buttonUp_frame (p : Params) (c : Encoder) :
    buttonUp p c = { c with keyDown := 0, dclk := (buttonUp p c).dclk, button := (buttonUp p c).button } := by
  unfold buttonUp
  dsimp only
  split
  · rfl
  · split
    · rfl
    · split <;> rfl

/-- A button check writes the hold counter, the window and the button state (40_encoder.md R125). -/
theorem buttonCheck_frame (p : Params) (c : Encoder) :
    buttonCheck p c = { c with keyDown := (buttonCheck p c).keyDown, dclk := (buttonCheck p c).dclk,
                               button := (buttonCheck p c).button } := by
  unfold buttonCheck
  rw [windowCountdown_frame]
  split
  · rw [buttonDown_frame]
  · rw [buttonUp_frame]

/-- The prescaler writes its counter and what a button check writes (40_encoder.md R126). -/
theorem prescale_frame (p : Params) (c : Encoder) :
    prescale p c = { c with keyDown := (prescale p c).keyDown, dclk := (prescale p c).dclk,
                            presc := (prescale p c).presc, button := (prescale p c).button } := by
  unfold prescale
  split
  · rw [buttonCheck_frame]
  · rfl

end Sys2Proof.Machine

/-! SUPPORT. One tick at the level of the machine (40_encoder.md R120, R121), and the statements about the decoders and
the acceleration. -/

namespace Sys2Proof.Machine

/-! ## A tick of the machine -/

/-- A failed read keeps the last valid levels (40_encoder.md R121). -/
theorem pinSample_failed (a b btn : Bool) (c : Encoder) :
    pinSample a b btn true c = pinSample c.rawA c.rawB c.rawBtn false c := rfl

theorem exec_tick (a b btn : Bool) (s : State) :
    exec (.tick a b btn) s = .next (s.setEnc (tickEncoder s.cfg a b btn false s.enc)) := rfl

/-- A failed tick acts as a tick at the last valid levels (40_encoder.md R120, R121). -/
theorem exec_tickFail (s : State) : exec .tickFail s = exec (.tick s.enc.rawA s.enc.rawB s.enc.rawBtn) s := by
  rw [exec_tick, tickEncoder, ← pinSample_failed false false false]
  rfl

/-- What a tick with a good read leaves in every field but those of the button. -/
theorem tickEncoder_frame (p : Params) (a b btn : Bool) (c : Encoder) :
    let t := tickEncoder p a b btn false c
    t = { (pinSample a b btn false c).decoded p with
            keyDown := t.keyDown, dclk := t.dclk, presc := t.presc, button := t.button } := by
  dsimp only
  rw [tickEncoder_eq]
  exact prescale_frame _ _

/-- Settles O11: the fields of `Encoder.decoded` under the frame of the prescaler. -/
theorem tickCompletes : Obligations.TickCompletes := by
  refine ⟨fun s a b btn => ⟨_, exec_tick a b btn s, rfl, ?_⟩, fun s => ⟨_, rfl, rfl, (exec_tickFail s).symm⟩⟩
  rw [State.setEnc_enc, tickEncoder_frame]
  exact ⟨rfl, rfl, rfl, rfl, rfl, rfl, rfl, rfl⟩

/-- What a tick leaves in the decoder's fields. -/
theorem tickEncoder_decoder (p : Params) (a b btn : Bool) (c : Encoder) :
    let d := pinSample a b btn false c
    let t := tickEncoder p a b btn false c
    t.hist = d.nextHist ∧ t.delta = c.delta + BitVec.ofInt 16 d.turn ∧ t.primed = true ∧
      t.accel = (if d.turn = 0 then accelDecay p c else accelBump p (accelDecay p c)).accel := by
  dsimp only
  rw [tickEncoder_frame]
  refine ⟨rfl, rfl, rfl, ?_⟩
  unfold Encoder.decoded
  dsimp only
  split <;> rfl

theorem decoder_of_exec_tick {s t : State} {a b btn : Bool} (h : exec (.tick a b btn) s = .next t) :
    let d := pinSample a b btn false s.enc
    t.enc.hist = d.nextHist ∧ t.enc.delta = s.enc.delta + BitVec.ofInt 16 d.turn ∧ t.enc.primed = true ∧
      t.enc.accel =
        (if d.turn = 0 then accelDecay s.cfg s.enc else accelBump s.cfg (accelDecay s.cfg s.enc)).accel := by
  cases h
  exact tickEncoder_decoder s.cfg a b btn s.enc

/-! ## The two decoders -/

theorem grayTurn_up {prev code : Nat} (h : code = (prev + 1) % 4) : grayTurn prev code = 1 := if_pos h

theorem grayTurn_down {prev code : Nat} (h : prev = (code + 1) % 4) : grayTurn prev code = -1 := by
  unfold grayTurn
  rw [if_neg (by omega), if_pos h]

theorem grayTurn_none {prev code : Nat} (h : code = prev ∨ code = (prev + 2) % 4) : grayTurn prev code = 0 := by
  unfold grayTurn
  rw [if_neg (by omega), if_neg (by omega)]

/-- Settles O12: the turn of the two-bit decoder, by the direction of the change. -/
theorem twoBitDecoderCounts : Obligations.TwoBitDecoderCounts := by
  intro s t a b btn code hcode hs ht
  have hgray : (grayCode a b).toNat = code := by
    subst hcode
    cases a <;> cases b <;> rfl
  obtain ⟨hhist, hdelta, hprimed, -⟩ := decoder_of_exec_tick ht
  refine ⟨fun hp => ?_, fun hp => ?_⟩
  · rw [hhist, hdelta, Encoder.nextHist_of_gray_unprimed (c := pinSample a b btn false s.enc) hs hp,
      Encoder.turn_of_unprimed (c := pinSample a b btn false s.enc) hp]
    exact ⟨hgray, by simp, hprimed⟩
  · have hturn : (pinSample a b btn false s.enc).turn = grayTurn (s.enc.hist.toNat % 4) code := by
      rw [← hgray]
      exact Encoder.turn_of_gray hs hp
    rw [hhist, hdelta, Encoder.nextHist_of_gray (c := pinSample a b btn false s.enc) hs hp, hturn]
    refine ⟨hprimed, fun h => ?_, fun h => ?_, fun h => ?_⟩
    · rw [grayTurn_up h]
      exact ⟨hgray, rfl⟩
    · rw [grayTurn_down h]
      exact ⟨hgray, by simp [sub_eq_add_neg]⟩
    · rw [grayTurn_none h]
      exact ⟨rfl, by simp⟩

/-- The table of R123 counts as the list of single-pin changes does. -/
theorem tableTurn_eq : ∀ (hist : BitVec 4) (a b : Bool),
    let prev := hist.toNat % 4
    let raw := 2 * a.toNat + b.toNat
    (hist.extractLsb' 0 2 ++ rawCode a b).toNat = 4 * prev + raw ∧
    tableTurn (hist.extractLsb' 0 2 ++ rawCode a b) =
      if (prev, raw) = (0, 1) ∨ (prev, raw) = (1, 3) ∨ (prev, raw) = (3, 2) ∨ (prev, raw) = (2, 0) then 1
      else if (raw, prev) = (0, 1) ∨ (raw, prev) = (1, 3) ∨ (raw, prev) = (3, 2) ∨ (raw, prev) = (2, 0) then -1
      else 0 := by decide

theorem rawCode_twice_toNat : ∀ a b : Bool, (rawCode a b ++ rawCode a b).toNat = 5 * (2 * a.toNat + b.toNat) := by
  decide

/-- Settles O13: the turn of the table decoder is `tableTurn_eq`. -/
theorem tableDecoderCounts : Obligations.TableDecoderCounts := by
  intro s t a b btn raw hraw hs ht
  subst hraw
  obtain ⟨hhist, hdelta, hprimed, -⟩ := decoder_of_exec_tick ht
  refine ⟨fun hp => ?_, fun hp => ?_⟩
  · rw [hhist, hdelta, Encoder.nextHist_of_table_unprimed (c := pinSample a b btn false s.enc) hs hp,
      Encoder.turn_of_unprimed (c := pinSample a b btn false s.enc) hp]
    exact ⟨rawCode_twice_toNat a b, by simp, hprimed⟩
  · obtain ⟨hnat, htable⟩ := tableTurn_eq s.enc.hist a b
    have hturn : (pinSample a b btn false s.enc).turn = tableTurn (s.enc.hist.extractLsb' 0 2 ++ rawCode a b) :=
      Encoder.turn_of_table hs hp
    rw [hhist, hdelta, Encoder.nextHist_of_table (c := pinSample a b btn false s.enc) hs hp, hturn, htable]
    refine ⟨hprimed, hnat, ?_⟩
    split
    · rfl
    · split
      · simp [sub_eq_add_neg]
      · simp

/-! ## Acceleration -/

/-- The decay takes ACCEL_DEC off, not below 0: bit 15 shows the underflow (40_encoder.md R124). -/
theorem accelDecay_toNat {p : Params} {c : Encoder} (hp : p.Legal) (h : c.accel.toNat ≤ p.accelTop) :
    (accelDecay p c).accel.toNat = c.accel.toNat - p.accelDec := by
  obtain ⟨-, htop, -, ⟨-, hdec⟩, -⟩ := hp
  unfold accelDecay
  dsimp only
  rw [BitVec.msb_eq_decide, BitVec.toNat_sub, BitVec.toNat_ofNat]
  split
  · next hm =>
    rw [decide_eq_true_eq] at hm
    change 0 = _
    omega
  · next hm =>
    rw [decide_eq_true_eq] at hm
    rw [BitVec.toNat_sub, BitVec.toNat_ofNat]
    omega

/-- The bump adds ACCEL_INC, not above ACCEL_TOP (40_encoder.md R124). -/
theorem accelBump_toNat {p : Params} (hp : p.Legal) (c : Encoder) :
    (accelBump p c).accel.toNat = min (c.accel.toNat + p.accelInc) p.accelTop := by
  obtain ⟨-, htop, -⟩ := hp
  simp only [accelBump, BitVec.toNat_ofNat]
  omega

/-- A step occurred exactly where the delta changed. -/
theorem Encoder.add_turn_eq_iff (c : Encoder) (d : BitVec 16) : d + BitVec.ofInt 16 c.turn = d ↔ c.turn = 0 := by
  rw [add_eq_left]
  obtain h | h | h := c.turn_cases <;> rw [h] <;> decide

/-- Settles O14: the decay, and the bump where the turn is not 0. -/
theorem accelerationFollowsTicks : Obligations.AccelerationFollowsTicks := by
  intro s t a b btn hlegal htop ht
  obtain ⟨-, hdelta, -, haccel⟩ := decoder_of_exec_tick ht
  rw [haccel, hdelta, Ne, Encoder.add_turn_eq_iff]
  refine ⟨fun h => ?_, fun h => ?_⟩
  · rw [if_pos h, accelDecay_toNat hlegal htop]
  · rw [if_neg h, accelBump_toNat hlegal, accelDecay_toNat hlegal htop]

/-! ## Clean ticks and idle ticks -/

/-- The selected decoder has seen the levels (a, b): its history holds them. -/
structure Encoder.Seen (a b : Bool) (c : Encoder) : Prop where
  primed : c.primed = true
  gray : c.strategy = false → c.hist = grayCode a b
  table : c.strategy = true → c.hist.extractLsb' 0 2 = rawCode a b

/-- On a clean change of the pins both decoders count the same (40_encoder.md R128). -/
theorem tableTurn_eq_grayTurn : ∀ a b a' b' : Bool, a' = a ∨ b' = b →
    tableTurn (rawCode a b ++ rawCode a' b') = grayTurn (grayCode a b).toNat (grayCode a' b').toNat := by decide

/-- A clean change that counts nothing is no change. -/
theorem grayCode_eq_of_turn_zero : ∀ a b a' b' : Bool, a' = a ∨ b' = b →
    grayTurn (grayCode a b).toNat (grayCode a' b').toNat = 0 → grayCode a b = grayCode a' b' := by decide

theorem extractLsb'_append_rawCode (x : BitVec 2) (a b : Bool) : (x ++ rawCode a b).extractLsb' 0 2 = rawCode a b :=
  BitVec.extractLsb'_append_eq_right

theorem Encoder.Seen.turn_eq {a b : Bool} {c : Encoder} (h : c.Seen a b) (hclean : c.rawA = a ∨ c.rawB = b) :
    c.turn = grayTurn (grayCode a b).toNat (grayCode c.rawA c.rawB).toNat := by
  cases hs : c.strategy with
  | false => rw [Encoder.turn_of_gray hs h.primed, h.gray hs, Nat.mod_eq_of_lt (grayCode_lt a b)]
  | true => rw [Encoder.turn_of_table hs h.primed, h.table hs, tableTurn_eq_grayTurn a b _ _ hclean]

/-- After a clean tick the selected decoder has seen the new levels. -/
theorem Encoder.Seen.decoded {a b : Bool} {c : Encoder} (h : c.Seen a b) (p : Params)
    (hclean : c.rawA = a ∨ c.rawB = b) : (c.decoded p).Seen c.rawA c.rawB where
  primed := rfl
  gray hs := by
    change c.nextHist = _
    rw [Encoder.nextHist_of_gray (c := c) hs h.primed]
    split
    · next h0 =>
      rw [h.turn_eq hclean] at h0
      rw [h.gray hs, grayCode_eq_of_turn_zero a b _ _ hclean h0]
    · rfl
  table hs := by
    change c.nextHist.extractLsb' 0 2 = _
    rw [Encoder.nextHist_of_table (c := c) hs h.primed, extractLsb'_append_rawCode]

/-- A tick that changes at most one pin, from the levels the decoder has seen (40_encoder.md R128). -/
theorem Encoder.Seen.tick {a b a' b' : Bool} {c : Encoder} (h : c.Seen a b) (hclean : a' = a ∨ b' = b) (p : Params)
    (btn : Bool) :
    let turn := grayTurn (grayCode a b).toNat (grayCode a' b').toNat
    let t := tickEncoder p a' b' btn false c
    t.Seen a' b' ∧ t.delta = c.delta + BitVec.ofInt 16 turn ∧
      t.accel = (if turn = 0 then accelDecay p c else accelBump p (accelDecay p c)).accel := by
  have hpins : (pinSample a' b' btn false c).Seen a b := ⟨h.primed, h.gray, h.table⟩
  have hseen := hpins.decoded p hclean
  have hturn : (pinSample a' b' btn false c).turn = grayTurn (grayCode a b).toNat (grayCode a' b').toNat :=
    hpins.turn_eq hclean
  obtain ⟨-, hdelta, -, haccel⟩ := tickEncoder_decoder p a' b' btn c
  rw [hturn] at hdelta haccel
  refine ⟨?_, hdelta, haccel⟩
  rw [tickEncoder_frame]
  exact ⟨hseen.primed, hseen.gray, hseen.table⟩

theorem execAll_tick (a b btn : Bool) (rest : List Instr) (s : State) :
    execAll (.tick a b btn :: rest) s = execAll rest (s.setEnc (tickEncoder s.cfg a b btn false s.enc)) := rfl

/-- Two encoders that have seen the same levels and hold the same delta and level keep doing so on a clean sequence of
ticks, whatever their strategies. -/
theorem execAll_clean_ticks_agree (ticks : List ((Bool × Bool) × Bool)) :
    ∀ {s0 s1 : State} {a b : Bool}, cleanLevels a b (ticks.map Prod.fst) → s0.cfg = s1.cfg →
      s0.enc.Seen a b → s1.enc.Seen a b → s0.enc.delta = s1.enc.delta → s0.enc.accel = s1.enc.accel →
      ∃ t0 t1 : State,
        execAll (ticks.map fun x => .tick x.1.1 x.1.2 x.2) s0 = .next t0 ∧
        execAll (ticks.map fun x => .tick x.1.1 x.1.2 x.2) s1 = .next t1 ∧
        t0.enc.delta = t1.enc.delta ∧ t0.enc.accel = t1.enc.accel := by
  induction ticks with
  | nil => exact fun _ _ _ _ hdelta haccel => ⟨_, _, rfl, rfl, hdelta, haccel⟩
  | cons x rest ih =>
    intro s0 s1 a b hclean hcfg h0 h1 hdelta haccel
    obtain ⟨hstep, hrest⟩ := hclean
    obtain ⟨hseen0, hdelta0, haccel0⟩ := h0.tick hstep s0.cfg x.2
    obtain ⟨hseen1, hdelta1, haccel1⟩ := h1.tick hstep s1.cfg x.2
    simp only [List.map_cons, execAll_tick]
    refine ih hrest hcfg hseen0 hseen1 ?_ ?_
    · rw [State.setEnc_enc, State.setEnc_enc, hdelta0, hdelta1, hdelta]
    · rw [State.setEnc_enc, State.setEnc_enc, haccel0, haccel1, hcfg]
      split <;> simp only [accelBump, accelDecay, haccel]

/-- Settles O18: encoders primed at the same levels have seen them, under either strategy. -/
theorem strategiesAgreeOnCleanTicks : Obligations.StrategiesAgreeOnCleanTicks := by
  intro ticks s0 s1 a b hclean hcfg hs0 hs1 hp0 hp1 hh0 hh1 hdelta haccel
  have h0 : s0.enc.Seen a b := ⟨hp0, fun _ => hh0, fun h => absurd (hs0.symm.trans h) (by decide)⟩
  have h1 : s1.enc.Seen a b := ⟨hp1, fun h => absurd (hs1.symm.trans h) (by decide), fun _ => hh1⟩
  exact execAll_clean_ticks_agree ticks hclean hcfg h0 h1 hdelta haccel

/-- A tick at the levels the decoder has seen counts nothing, so the level only decays (40_encoder.md R127). -/
theorem Encoder.Seen.idle {a b : Bool} {c : Encoder} (h : c.Seen a b) {p : Params} (hp : p.Legal)
    (htop : c.accel.toNat ≤ p.accelTop) (btn : Bool) :
    let t := tickEncoder p a b btn false c
    t.Seen a b ∧ t.delta = c.delta ∧ t.accel.toNat = c.accel.toNat - p.accelDec := by
  obtain ⟨hseen, hdelta, haccel⟩ := h.tick (.inl rfl) p btn
  have hturn : grayTurn (grayCode a b).toNat (grayCode a b).toNat = 0 := grayTurn_none (.inl rfl)
  rw [hturn] at hdelta haccel
  refine ⟨hseen, by rw [hdelta]; simp, ?_⟩
  rw [haccel, if_pos rfl, accelDecay_toNat hp htop]

/-- Settles O19, by induction on the number of ticks, each of them idle. -/
theorem idleTicksEmptyAcceleration : Obligations.IdleTicksEmptyAcceleration := by
  intro n s a b btn hlegal htop hprimed hgray htable
  have hseen : s.enc.Seen a b := ⟨hprimed, hgray, htable⟩
  clear hprimed hgray htable
  induction n generalizing s with
  | zero => exact ⟨s, rfl, by simp, rfl⟩
  | succ n ih =>
    obtain ⟨hseen', hdelta, haccel⟩ := hseen.idle hlegal htop btn
    obtain ⟨t, ht, htaccel, htdelta⟩ := ih (s.setEnc (tickEncoder s.cfg a b btn false s.enc)) hlegal
      (by rw [State.setEnc_enc, haccel]; exact (Nat.sub_le _ _).trans htop) hseen'
    refine ⟨t, ht, ?_, htdelta.trans hdelta⟩
    rw [htaccel, State.setEnc_enc, haccel, State.setEnc_cfg, Nat.sub_sub, Nat.succ_mul, Nat.add_comm]

end Sys2Proof.Machine

/-! SUPPORT. The button (40_encoder.md R125, R126): what one check does to the hold counter, the window and the button
state, what runs of equal checks do, and the statements about presses (R130). -/

namespace Sys2Proof.Machine

/-! ## One button check -/

@[simp] theorem windowCountdown_keyDown (c : Encoder) : (windowCountdown c).keyDown = c.keyDown := by
  rw [windowCountdown_frame]

@[simp] theorem windowCountdown_dclk_toNat (c : Encoder) : (windowCountdown c).dclk.toNat = c.dclk.toNat - 1 := by
  unfold windowCountdown
  split
  · next h => rw [h]; rfl
  · dsimp only
    bv_omega

@[simp] theorem windowCountdown_button (c : Encoder) :
    (windowCountdown c).button = if c.dclk.toNat = 1 then .clicked else c.button := by
  unfold windowCountdown
  split
  · next h => rw [h]; rfl
  · have hiff : c.dclk - 1 = 0 ↔ c.dclk.toNat = 1 := by
      rw [sub_eq_zero, ← BitVec.toNat_inj]
      rfl
    simp only [hiff]

/-- A check that sees the button down counts it, gives Held once the count exceeds HOLD_TICKS, and counts the window
down (40_encoder.md R125). -/
theorem buttonCheck_down {p : Params} {c : Encoder} (hp : p.Legal) (hb : c.rawBtn = true) :
    let n := min (c.keyDown.toNat + 1) (p.holdTicks + 1)
    (buttonCheck p c).keyDown.toNat = n ∧ (buttonCheck p c).dclk.toNat = c.dclk.toNat - 1 ∧
      (buttonCheck p c).button =
        if c.dclk.toNat = 1 then .clicked else if p.holdTicks < n then .held else c.button := by
  obtain ⟨-, -, -, -, -, hhold, -⟩ := hp
  rw [buttonCheck, if_pos hb]
  refine ⟨?_, windowCountdown_dclk_toNat _, windowCountdown_button _⟩
  rw [windowCountdown_keyDown, buttonDown, BitVec.toNat_ofNat]
  omega

/-- The button state and the window after a check that sees the button up, before the countdown (40_encoder.md R125). -/
def releaseOutcome (p : Params) (c : Encoder) : ButtonState × Nat :=
  if c.keyDown = 0 then (c.button, c.dclk.toNat)
  else if c.button = .held then (.released, 0)
  else if 0 < c.dclk.toNat ∧ c.dclkEn = true then (.doubleClicked, 0)
  else (c.button, if c.dclkEn then p.doubleClickTicks else 1)

theorem buttonUp_eq_releaseOutcome {p : Params} (hp : p.Legal) (c : Encoder) :
    (buttonUp p c).button = (releaseOutcome p c).1 ∧ (buttonUp p c).dclk.toNat = (releaseOutcome p c).2 := by
  obtain ⟨-, -, -, -, -, -, ⟨-, hclick⟩, -⟩ := hp
  have hpos : c.dclk ≠ 0 ↔ 0 < c.dclk.toNat := by bv_omega
  unfold buttonUp releaseOutcome
  simp only [hpos]
  split
  · exact ⟨rfl, rfl⟩
  · split
    · exact ⟨rfl, rfl⟩
    · split
      · exact ⟨rfl, rfl⟩
      · refine ⟨rfl, ?_⟩
        dsimp only
        split
        · rw [BitVec.toNat_ofNat]
          omega
        · rfl

/-- A check that sees the button up handles a release and counts the window down (40_encoder.md R125). -/
theorem buttonCheck_up {p : Params} {c : Encoder} (hp : p.Legal) (hb : c.rawBtn = false) :
    (buttonCheck p c).keyDown = 0 ∧ (buttonCheck p c).dclk.toNat = (releaseOutcome p c).2 - 1 ∧
      (buttonCheck p c).button = if (releaseOutcome p c).2 = 1 then .clicked else (releaseOutcome p c).1 := by
  obtain ⟨hbutton, hdclk⟩ := buttonUp_eq_releaseOutcome hp c
  rw [buttonCheck, if_neg (by rw [hb]; decide)]
  refine ⟨?_, ?_, ?_⟩
  · rw [windowCountdown_keyDown]
    exact congrArg Encoder.keyDown (buttonUp_frame p c)
  · rw [windowCountdown_dclk_toNat, hdclk]
  · rw [windowCountdown_button, hdclk, hbutton]

theorem prescale_below {p : Params} {c : Encoder} (h : c.presc.toNat + 1 < p.buttonCheckInterval) :
    prescale p c = { c with presc := c.presc + 1 } := if_neg (Nat.not_le.2 h)

theorem prescale_check {p : Params} {c : Encoder} (h : p.buttonCheckInterval ≤ c.presc.toNat + 1) :
    prescale p c = buttonCheck p { c with presc := 0 } := if_pos h

/-- Settles O15: the two branches of the prescaler, the second by what the button check sees. -/
theorem buttonCheckFollowsTheRule : Obligations.ButtonCheckFollowsTheRule := by
  intro s t a b btn hp ht
  cases ht
  rw [State.setEnc_enc, tickEncoder_eq]
  generalize hd : (pinSample a b btn false s.enc).decoded s.cfg = d
  have hpresc : d.presc = s.enc.presc := by rw [← hd]; rfl
  refine ⟨fun h => ?_, fun h => ?_⟩
  · rw [prescale_below (by rwa [hpresc]), hpresc]
    subst hd
    refine ⟨?_, rfl, rfl, rfl⟩
    obtain ⟨-, -, -, -, ⟨-, hint⟩, -⟩ := hp
    bv_omega
  · rw [prescale_check (by rwa [hpresc])]
    have hzero : (buttonCheck s.cfg { d with presc := 0 }).presc = 0 := by rw [buttonCheck_frame]
    subst hd
    cases btn with
    | true =>
      obtain ⟨hkey, hdclk, hbutton⟩ := buttonCheck_down hp
        (c := { (pinSample a b true false s.enc).decoded s.cfg with presc := 0 }) rfl
      rw [← hkey] at hbutton
      exact ⟨_, _, hzero, fun _ => ⟨hkey, rfl, rfl⟩, nofun, hdclk, hbutton⟩
    | false =>
      obtain ⟨hkey, hdclk, hbutton⟩ := buttonCheck_up hp
        (c := { (pinSample a b false false s.enc).decoded s.cfg with presc := 0 }) rfl
      exact ⟨_, _, hzero, nofun, fun _ => ⟨hkey, rfl⟩, hdclk, hbutton⟩

/-! ## Runs of button checks -/

/-- The part of the encoder that button checks read and write: whether double-click is on, the hold counter, the window
and the button state. -/
structure Encoder.ButtonAt (en : Bool) (k w : Nat) (b : ButtonState) (c : Encoder) : Prop where
  dclkEn : c.dclkEn = en
  keyDown : c.keyDown.toNat = k
  dclk : c.dclk.toNat = w
  button : c.button = b

theorem buttonChecks_append (p : Params) (l l' : List Bool) (c : Encoder) :
    buttonChecks p (l ++ l') c = buttonChecks p l' (buttonChecks p l c) := by
  induction l generalizing c with
  | nil => rfl
  | cons btn rest ih => exact ih _

section
variable {p : Params} {en : Bool} {k w : Nat} {b : ButtonState} {c : Encoder}

theorem buttonCheck_dclkEn (p : Params) (c : Encoder) : (buttonCheck p c).dclkEn = c.dclkEn := by
  rw [buttonCheck_frame]

/-- One check with the button down. -/
theorem Encoder.ButtonAt.down (h : c.ButtonAt en k w b) (hp : p.Legal) :
    (buttonChecks p [true] c).ButtonAt en (min (k + 1) (p.holdTicks + 1)) (w - 1)
      (if w = 1 then .clicked else if p.holdTicks < min (k + 1) (p.holdTicks + 1) then .held else b) := by
  obtain ⟨rfl, rfl, rfl, rfl⟩ := h
  obtain ⟨hkey, hdclk, hbutton⟩ := buttonCheck_down hp (c := { c with rawBtn := true }) rfl
  exact ⟨buttonCheck_dclkEn _ _, hkey, hdclk, hbutton⟩

/-- One check with the button up, by the outcome of its release handling. -/
theorem Encoder.ButtonAt.up (h : c.ButtonAt en k w b) (hp : p.Legal) {o : ButtonState × Nat}
    (ho : releaseOutcome p c = o) :
    (buttonChecks p [false] c).ButtonAt en 0 (o.2 - 1) (if o.2 = 1 then .clicked else o.1) := by
  subst ho
  obtain ⟨hkey, hdclk, hbutton⟩ := buttonCheck_up hp (c := { c with rawBtn := false }) rfl
  exact ⟨(buttonCheck_dclkEn _ _).trans h.dclkEn, congrArg BitVec.toNat hkey, hdclk, hbutton⟩

theorem Encoder.ButtonAt.keyDown_ne_zero (h : c.ButtonAt en k w b) (hk : 0 < k) : c.keyDown ≠ 0 :=
  fun h0 => hk.ne' (by rw [← h.keyDown, h0]; rfl)

theorem Encoder.ButtonAt.outcome_of_up (h : c.ButtonAt en 0 w b) (p : Params) : releaseOutcome p c = (b, w) := by
  rw [releaseOutcome, if_pos (BitVec.eq_of_toNat_eq h.keyDown), h.button, h.dclk]

/-- The release of a press that is Held gives Released and leaves no window. -/
theorem Encoder.ButtonAt.release_held (h : c.ButtonAt en k w .held) (hp : p.Legal) (hk : 0 < k) :
    (buttonChecks p [false] c).ButtonAt en 0 0 .released :=
  h.up hp (o := (.released, 0)) (by rw [releaseOutcome, if_neg (h.keyDown_ne_zero hk), if_pos h.button])

/-- The release of a press inside a window gives DoubleClicked and leaves no window. -/
theorem Encoder.ButtonAt.release_second (h : c.ButtonAt true k w b) (hp : p.Legal) (hk : 0 < k) (hb : b ≠ .held)
    (hw : 0 < w) : (buttonChecks p [false] c).ButtonAt true 0 0 .doubleClicked :=
  h.up hp (o := (.doubleClicked, 0)) (by
    rw [releaseOutcome, if_neg (h.keyDown_ne_zero hk), h.button, if_neg hb, h.dclk, h.dclkEn, if_pos ⟨hw, rfl⟩])

/-- The release of a press outside a window opens one, which the same check counts down. -/
theorem Encoder.ButtonAt.release_first (h : c.ButtonAt true k 0 b) (hp : p.Legal) (hk : 0 < k) (hb : b ≠ .held) :
    (buttonChecks p [false] c).ButtonAt true 0 (p.doubleClickTicks - 1)
      (if p.doubleClickTicks = 1 then .clicked else b) :=
  h.up hp (o := (b, p.doubleClickTicks)) (by
    rw [releaseOutcome, if_neg (h.keyDown_ne_zero hk), h.button, if_neg hb, h.dclk, h.dclkEn,
      if_neg (fun hw => Nat.lt_irrefl 0 hw.1), if_pos rfl])

/-- A press of n checks, in which an open window does not run out. -/
theorem Encoder.ButtonAt.press (h : c.ButtonAt en 0 w b) (hp : p.Legal) (n : Nat) (hw : w = 0 ∨ n < w) :
    (buttonChecks p (List.replicate n true) c).ButtonAt en (min n (p.holdTicks + 1)) (w - n)
      (if p.holdTicks < n then .held else b) := by
  induction n with
  | zero => exact h
  | succ n ih =>
    have hstep := (ih (by omega)).down hp
    rw [List.replicate_succ', buttonChecks_append]
    rw [if_neg (by omega), show min (min n (p.holdTicks + 1) + 1) (p.holdTicks + 1) = min (n + 1) (p.holdTicks + 1) by
      omega, Nat.sub_sub] at hstep
    convert hstep using 1
    split
    · rw [if_pos (by omega)]
    · rw [if_neg (by omega), if_neg (by omega)]

/-- n checks with the button up: an open window counts down, and Clicked comes where it runs out. -/
theorem Encoder.ButtonAt.wait (h : c.ButtonAt en 0 w b) (hp : p.Legal) (n : Nat) :
    (buttonChecks p (List.replicate n false) c).ButtonAt en 0 (w - n) (if 0 < w ∧ w ≤ n then .clicked else b) := by
  induction n with
  | zero =>
    rw [if_neg (by omega)]
    exact h
  | succ n ih =>
    have hstep := ih.up hp (ih.outcome_of_up p)
    dsimp only at hstep
    rw [List.replicate_succ', buttonChecks_append]
    rw [Nat.sub_sub] at hstep
    convert hstep using 1
    split
    · by_cases hwn : w ≤ n
      · rw [if_neg (by omega), if_pos (by omega)]
      · rw [if_pos (by omega)]
    · rw [if_neg (by omega), if_neg (by omega)]

end

/-! ## Presses -/

/-- Settles O16: the press, then the release of what is Held. -/
theorem heldOncePerPress : Obligations.HeldOncePerPress := by
  intro p c n hp hkey hdclk hn
  have h0 : c.ButtonAt c.dclkEn 0 0 c.button := ⟨rfl, congrArg BitVec.toNat hkey, congrArg BitVec.toNat hdclk, rfl⟩
  have hpress := h0.press hp n (.inl rfl)
  refine ⟨fun hle => ?_, fun hlt => ?_⟩
  · rw [hpress.button, if_neg (Nat.not_lt.2 hle)]
  · rw [if_pos hlt] at hpress
    have hrelease := hpress.release_held hp (by omega)
    rw [buttonChecks_append]
    exact ⟨hpress.button, hrelease.button, BitVec.eq_of_toNat_eq hrelease.dclk⟩

/-- A short press with double-click on and no window open, and the u + 1 checks with the button up after it. -/
theorem Encoder.ButtonAt.shortPress {p : Params} {b : ButtonState} {c : Encoder} (h : c.ButtonAt true 0 0 b)
    (hp : p.Legal) (hb : b ≠ .held) {n : Nat} (hn : 1 ≤ n) (hhold : n ≤ p.holdTicks) (u : Nat) :
    (buttonChecks p (List.replicate n true ++ List.replicate (u + 1) false) c).ButtonAt true 0
      (p.doubleClickTicks - 1 - u) (if u + 1 < p.doubleClickTicks then b else .clicked) := by
  have hpress := h.press hp n (.inl rfl)
  rw [if_neg (Nat.not_lt.2 hhold), Nat.zero_sub] at hpress
  have hwait := (hpress.release_first hp (by omega) hb).wait hp u
  rw [buttonChecks_append, List.replicate_succ]
  obtain ⟨-, -, -, -, -, -, ⟨hclick, -⟩, -⟩ := hp
  convert hwait using 1
  · split
    · rw [if_neg (by omega), if_neg (by omega)]
    · by_cases h1 : p.doubleClickTicks = 1
      · rw [if_neg (by omega), if_pos h1]
      · rw [if_pos (by omega)]
  · rfl

/-- Settles O17: a short press opens the window; it runs out, or a second short press is released in it. -/
theorem shortPressesGiveClicks : Obligations.ShortPressesGiveClicks := by
  intro p c n hp hkey hdclk hen hbutton hn hhold
  have h0 : c.ButtonAt true 0 0 c.button := ⟨hen, congrArg BitVec.toNat hkey, congrArg BitVec.toNat hdclk, rfl⟩
  refine ⟨fun m => (h0.shortPress hp hbutton hn hhold m).button, fun u d m hd hdhold hwin => ?_⟩
  have hfirst := h0.shortPress hp hbutton hn hhold u
  rw [if_pos (by omega)] at hfirst
  have hpress := hfirst.press hp d (.inr (by omega))
  rw [if_neg (Nat.not_lt.2 hdhold)] at hpress
  have hrelease := hpress.release_second hp (by omega) hbutton (by omega)
  rw [buttonChecks_append, buttonChecks_append, List.replicate_succ]
  exact ((hrelease.wait hp m).button).trans (if_neg (by omega))

end Sys2Proof.Machine

/-! SUPPORT. The host's reads of the encoder (40_encoder.md R131 to R139; 45_host.md R240): fields as numbers, and the
whole notches of a delta. -/

namespace Sys2Proof.Machine

/-! ## Fields as response words -/

/-- A field read zero-extended is its number (30_encoding.md R99). -/
theorem zext32_eq_ofNat {n : Nat} (x : BitVec n) : zext32 x = BitVec.ofNat 32 x.toNat := (BitVec.ofNat_toNat 32 x).symm

/-- A field read sign-extended is its signed number (30_encoding.md R99). -/
theorem sext32_eq_ofInt {n : Nat} (x : BitVec n) : sext32 x = BitVec.ofInt 32 x.toInt := rfl

/-- The number of two joined fields. -/
theorem toNat_append_eq_add {m n : Nat} (x : BitVec m) (y : BitVec n) : (x ++ y).toNat = 2 ^ n * x.toNat + y.toNat := by
  rw [BitVec.toNat_append, ← Nat.shiftLeft_add_eq_or_of_lt y.isLt, Nat.shiftLeft_eq, Nat.mul_comm]

theorem encHistBits_toNat (c : Encoder) : (encHistBits c).toNat =
    c.hist.toNat + 16 * c.primed.toNat + 32 * c.rawA.toNat + 64 * c.rawB.toNat + 128 * c.rawBtn.toNat := by
  simp only [encHistBits, toNat_append_eq_add, BitVec.toNat_ofBool]
  omega

theorem encCtrlBits_toNat (c : Encoder) : (encCtrlBits c).toNat =
    c.strategy.toNat + 2 * c.accelEn.toNat + 4 * (notchStepsCode c.steps).toNat + 16 * c.dclkEn.toNat := by
  simp only [encCtrlBits, toNat_append_eq_add, BitVec.toNat_ofBool]
  omega

/-- Settles O21: each read answers its field's number; only ENC_BUTTON writes, and only the button state. -/
theorem encoderReadsRespond : Obligations.EncoderReadsRespond := by
  intro s bc sc hbc hsc
  have hbutton : zext32 (buttonCode s.enc.button) = BitVec.ofNat 32 bc := by
    subst hbc
    cases s.enc.button <;> rfl
  have hsteps : (notchStepsCode s.enc.steps).toNat = sc := by
    subst hsc
    cases s.enc.steps <;> rfl
  have hctrl : zext32 (encCtrlBits s.enc) = BitVec.ofNat 32 (s.enc.strategy.toNat + 2 * s.enc.accelEn.toNat + 4 * sc +
      16 * s.enc.dclkEn.toNat) := by
    rw [zext32_eq_ofNat, encCtrlBits_toNat, hsteps]
  rw [← hbutton, ← hctrl, ← encHistBits_toNat]
  simp only [← zext32_eq_ofNat, ← sext32_eq_ofInt]
  exact ⟨rfl, rfl, rfl, rfl, rfl, rfl, rfl, rfl, rfl⟩

/-! ## Notches -/

/-- The residue that stays is the delta modulo the steps of a notch (40_encoder.md R131). -/
theorem and_notchMask (x : BitVec 16) (n : NotchSteps) :
    x &&& notchMask n = BitVec.ofInt 16 (x.toInt % 2 ^ notchShift n) := by
  have hmask : (notchMask n).toNat = 2 ^ notchShift n - 1 := by cases n <;> rfl
  apply BitVec.eq_of_toNat_eq
  rw [BitVec.toNat_and, hmask, Nat.and_two_pow_sub_one_eq_mod, BitVec.toNat_ofInt, BitVec.toInt_eq_toNat_cond]
  cases n <;> simp only [notchShift] <;> split <;> omega

/-- A halfword below 2^15 keeps its number as s16, and is negated without overflow. -/
theorem toInt_and_toInt_neg_of_lt {x : BitVec 16} (h : x.toNat < 2 ^ 15) :
    x.toInt = x.toNat ∧ (-x).toInt = -(x.toNat : Int) := by
  rw [BitVec.toInt_eq_toNat_cond, BitVec.toInt_eq_toNat_cond, BitVec.toNat_neg]
  constructor <;> split <;> omega

/-- The magnitude of an ENC_VALUE response is 1 to 256 (40_encoder.md R131). -/
theorem encMagnitude_toInt (en : Bool) (level : BitVec 16) :
    let m : BitVec 16 := 1 + (if en then level >>> 8 else 0)
    let k : Int := 1 + (if en then (level.toNat : Int) / 256 else 0)
    m.toInt = k ∧ (-m).toInt = -k := by
  cases en with
  | false => exact ⟨rfl, rfl⟩
  | true =>
    have hnat : ((1 : BitVec 16) + level >>> 8).toNat = 1 + level.toNat / 256 := by
      have hone : (1 : BitVec 16).toNat = 1 := rfl
      have hlt := level.isLt
      rw [BitVec.toNat_add, BitVec.toNat_ushiftRight, Nat.shiftRight_eq_div_pow, hone]
      omega
    obtain ⟨hpos, hneg⟩ := toInt_and_toInt_neg_of_lt (x := (1 : BitVec 16) + level >>> 8) (by have := level.isLt; omega)
    rw [hnat] at hpos hneg
    simp only [if_true]
    exact ⟨hpos.trans (by push_cast; rfl), hneg.trans (by push_cast; rfl)⟩

/-- The signed response of ENC_VALUE, by the sign of the whole notches in the delta (40_encoder.md R131). -/
theorem encValue_toInt (c : Encoder) :
    let q := c.delta.toInt / 2 ^ notchShift c.steps
    let m : Int := 1 + (if c.accelEn then (c.accel.toNat : Int) / 256 else 0)
    (encValue c).toInt = if q < 0 then -m else if 0 < q then m else 0 := by
  obtain ⟨hpos, hneg⟩ := encMagnitude_toInt c.accelEn c.accel
  have hq : (c.delta.sshiftRight (notchShift c.steps)).toInt = c.delta.toInt / 2 ^ notchShift c.steps := by
    rw [BitVec.toInt_sshiftRight, Int.shiftRight_eq_div_pow]
    norm_cast
  dsimp only at hpos hneg ⊢
  rw [← hq, ← hneg, ← hpos]
  unfold encValue
  generalize c.delta.sshiftRight (notchShift c.steps) = q
  have hzero : q = 0 ↔ q.toInt = 0 := (BitVec.toInt_inj (y := 0)).symm
  have hslt : q.slt 0 = true ↔ q.toInt < 0 := BitVec.slt_iff_toInt_lt
  simp only [hslt, hzero]
  split
  · rfl
  · split
    · rw [if_neg (show ¬0 < q.toInt by omega)]
      rfl
    · rw [if_pos (show 0 < q.toInt by omega)]

/-- Settles O20: the notches and the residue are quotient and remainder by a power of two. -/
theorem encValueReadsNotches : Obligations.EncValueReadsNotches := by
  intro s n q m r hn hq hm hr
  have hpow : n = 2 ^ notchShift s.enc.steps := by
    subst hn
    cases s.enc.steps <;> rfl
  have hresp : sext32 (encValue s.enc) = BitVec.ofInt 32 r := by
    rw [sext32_eq_ofInt, encValue_toInt, hr, hm, hq, hpow]
  rw [← hresp, hpow, ← and_notchMask]
  rfl

end Sys2Proof.Machine

/-! SUPPORT. The arrival of a CB event and the trigger debouncer (41_trigger.md R150 to R153): what an accepted event and
one that waits leave, what a run of callbacks does to a counter, and the statements about them. -/

namespace Sys2Proof.Machine

/-! ## A CB event reaches RENDER -/

theorem exec_cb (l : Byte) (s : State) : exec (.cb l) s = .next (acceptCallback l false s) := rfl

theorem exec_cbFail (s : State) : exec .cbFail s = .next (acceptCallback 0 true s) := rfl

/-- RENDER accepts a CB event that finds it ready (41_trigger.md R150). -/
theorem acceptCallback_of_ready {s : State} (h : Ready s) (l : Byte) (failed : Bool) :
    acceptCallback l failed s = prologue l failed s := by
  obtain ⟨hidle, hempty⟩ := h
  obtain ⟨hwait | hwait, -⟩ | ⟨-, -, heq⟩ := acceptCallback_cases l failed s
  · exact absurd hwait (by rw [hidle]; decide)
  · exact absurd hempty hwait
  · exact heq

/-- A CB event waits behind a callback in progress or an earlier CB that waits (60_exceptions.md R304). -/
theorem acceptCallback_of_busy {s : State} (h : s.rBusy = true ∨ s.held ≠ []) (l : Byte) (failed : Bool) :
    acceptCallback l failed s = { s with held := s.held ++ [⟨l, failed⟩] } := by
  obtain ⟨-, heq⟩ | ⟨hidle, hempty, -⟩ := acceptCallback_cases l failed s
  · exact heq
  · exact absurd h (by rw [hidle, hempty]; simp)

/-- A failed trigger read repeats the levels of the latest prologue (41_trigger.md R150). -/
theorem prologue_failed (l : Byte) (s : State) : prologue l true s = prologue s.trig.raw false s := rfl

/-- The trigger state after the prologue of a good read. -/
theorem prologue_trig (l : Byte) (s : State) : (prologue l false s).trig = debounce s.cfg l s.trig := rfl

/-- Settles O24: an event that waits is appended to the queue; the prologue of a failed read is that of the old levels. -/
theorem busyCallbackWaits : Obligations.BusyCallbackWaits := by
  refine ⟨fun s l hbusy => ?_, fun s hbusy => ?_, fun s hready => ⟨prologue s.trig.raw false s, ?_, ?_, rfl⟩⟩
  · rw [exec_cb, acceptCallback_of_busy hbusy]
  · rw [exec_cbFail, acceptCallback_of_busy hbusy]
  · rw [exec_cbFail, acceptCallback_of_ready hready, prologue_failed]
  · rw [exec_cb, acceptCallback_of_ready hready]

/-! ## One debounce -/

/-- A callback that sees the channel active counts it, up to the threshold + 1, which 16 bits hold (41_trigger.md
R151). -/
theorem debounceCount_active_toNat {p : Params} (hp : p.Legal) (n : BitVec 16) :
    (debounceCount p true n).toNat = min (n.toNat + 1) (p.debounceThreshold + 1) := by
  obtain ⟨⟨-, hmax⟩, -⟩ := hp
  rw [debounceCount, if_pos rfl, BitVec.toNat_ofNat]
  exact Nat.mod_eq_of_lt (by omega)

/-- A callback that sees the channel inactive resets its counter (41_trigger.md R151). -/
theorem debounceCount_inactive (p : Params) (n : BitVec 16) : debounceCount p false n = 0 := rfl

theorem debounce_cnt_active {p : Params} (hp : p.Legal) {l : Byte} {i : Fin 8} (hl : l.getLsbD i.val = true)
    (t : Trigger) :
    ((debounce p l t).cnt.get i).toNat = min ((t.cnt.get i).toNat + 1) (p.debounceThreshold + 1) := by
  rw [debounce_cnt, hl, debounceCount_active_toNat hp]

theorem debounce_cnt_inactive (p : Params) {l : Byte} {i : Fin 8} (hl : l.getLsbD i.val = false) (t : Trigger) :
    (debounce p l t).cnt.get i = 0 := by
  rw [debounce_cnt, hl, debounceCount_inactive]

/-- A channel that a callback sees inactive has no rising edge: the threshold is at least 1. -/
theorem debounce_rise_inactive {p : Params} (hp : p.Legal) {l : Byte} {i : Fin 8} (hl : l.getLsbD i.val = false)
    (t : Trigger) : (debounce p l t).rise.getLsbD i.val = false := by
  obtain ⟨⟨hmin, -⟩, -⟩ := hp
  have hne : (0 : BitVec 16).toNat ≠ p.debounceThreshold := Nat.ne_of_lt hmin
  rw [debounce_rise, debounce_cnt_inactive p hl]
  exact beq_false_of_ne hne

/-- Settles O23: the prologue's frame, then the counter by the level seen and the snapshots that every debounce takes. -/
theorem callbackDebounces : Obligations.CallbackDebounces := by
  intro s l hp hready
  refine ⟨prologue l false s, ?_, ?_, rfl, fun i => ?_⟩
  · rw [exec_cb, acceptCallback_of_ready hready]
  · exact prologue_frame l false s
  · obtain ⟨-, hrise, hreleased⟩ := Trigger.Ok.debounce hp l s.trig
    rw [prologue_trig]
    exact ⟨fun hl => debounce_cnt_active hp hl _, fun hl => debounce_cnt_inactive _ hl _, hrise i, hreleased i⟩

/-! ## Runs of callbacks -/

theorem debounceAll_concat (p : Params) (run : List Byte) (l : Byte) (t : Trigger) :
    debounceAll p (run ++ [l]) t = debounce p l (debounceAll p run t) := by
  induction run generalizing t with
  | nil => rfl
  | cons l' rest ih => exact ih _

/-- A run of callbacks that see the channel active adds its length to the counter, up to the threshold + 1
(41_trigger.md R153). -/
theorem debounceAll_cnt_active {p : Params} (hp : p.Legal) {i : Fin 8} {run : List Byte}
    (hrun : ∀ l ∈ run, l.getLsbD i.val = true) {t : Trigger} (ht : (t.cnt.get i).toNat ≤ p.debounceThreshold + 1) :
    ((debounceAll p run t).cnt.get i).toNat = min ((t.cnt.get i).toNat + run.length) (p.debounceThreshold + 1) := by
  induction run generalizing t with
  | nil => exact (min_eq_left ht).symm
  | cons l rest ih =>
    obtain ⟨hl, hrest⟩ := List.forall_mem_cons.1 hrun
    have hcnt := debounce_cnt_active hp hl t
    rw [debounceAll, ih hrest (by omega), hcnt, List.length_cons]
    omega

/-- After the first callback of a run the rise bit is the snapshot of the counter (41_trigger.md R151). -/
theorem debounceAll_rise (p : Params) {run : List Byte} (hne : run ≠ []) (t : Trigger) (i : Fin 8) :
    (debounceAll p run t).rise.getLsbD i.val =
      decide (((debounceAll p run t).cnt.get i).toNat = p.debounceThreshold) := by
  rw [← List.dropLast_append_getLast hne, debounceAll_concat, debounce_rise, beq_eq_decide]

/-- Settles O25: the counter is the run's length up to the threshold + 1, so it is at the threshold once. -/
theorem oneEdgePerHeldInput : Obligations.OneEdgePerHeldInput := by
  intro p t i run hp hzero hne hrun
  refine ⟨?_, fun l hl => ?_⟩
  · have h0 : (t.cnt.get i).toNat = 0 := congrArg BitVec.toNat hzero
    have hcnt := debounceAll_cnt_active hp hrun (t := t) (by omega)
    have hiff : ((debounceAll p run t).cnt.get i).toNat = p.debounceThreshold ↔
        run.length = p.debounceThreshold := by omega
    rw [debounceAll_rise p hne, decide_eq_decide.2 hiff]
  · rw [debounceAll_concat]
    exact debounce_rise_inactive hp hl _

end Sys2Proof.Machine

/-! SUPPORT. The MIDI framer and the voice router (42_midi.md R160 to R176): what a byte does by its class and by the
parser's state, what a note does to one voice, and the statements about status bytes and data bytes. -/

namespace Sys2Proof.Machine

/-! ## Status bytes -/

/-- A channel status becomes the running status (42_midi.md R162). -/
theorem midiByte_channel {b : Byte} (hlo : 0x80 ≤ b.toNat) (hhi : b.toNat ≤ 0xEF) (s : State) :
    midiByte b s = s.setMidi ⟨.ch1, b, 0, 0⟩ := by
  have hmsb : b.getLsbD 7 = true := (BitVec.msb_eq_decide b).trans (decide_eq_true hlo)
  rw [midiByte_status b s hmsb, statusByte, if_pos hhi]

/-- A system byte other than 0xFF cancels running status (42_midi.md R163). -/
theorem midiByte_system {b : Byte} (hb : 0xF0 ≤ b.toNat ∧ b.toNat ≤ 0xFE) (s : State) :
    midiByte b s = s.setMidi ⟨.idle, 0x00, 0, 0⟩ := by
  obtain ⟨hlo, hhi⟩ := hb
  have hmsb : b.getLsbD 7 = true := (BitVec.msb_eq_decide b).trans (decide_eq_true (by omega))
  have hne : b ≠ 0xFF := by
    rintro rfl
    exact absurd hhi (by decide)
  rw [midiByte_status b s hmsb, statusByte, if_neg (by omega), if_neg hne]

/-- The status of class `cls`, 0x8 to 0xE, for channel `c` (42_midi.md R162). -/
theorem midiByte_channelStatus {cls : BitVec 4} (hcls : 0x8 ≤ cls.toNat ∧ cls.toNat ≤ 0xE) (c : BitVec 4) (s : State) :
    midiByte (cls ++ c) s = s.setMidi ⟨.ch1, cls ++ c, 0, 0⟩ := by
  have hb : BitVec.toNat (w := 8) (cls ++ c) = 16 * cls.toNat + c.toNat := toNat_append_eq_add cls c
  exact midiByte_channel (by omega) (by omega) s

/-- The step of a channel status, with the running status as a number. -/
theorem next_channelStatus {cls : BitVec 4} (hcls : 0x8 ≤ cls.toNat ∧ cls.toNat ≤ 0xE) (c : BitVec 4) (s : State) :
    (.next (midiByte (cls ++ c) s) : Result) =
      .next { s with midi := ⟨.ch1, BitVec.ofNat 8 (16 * cls.toNat + c.toNat), 0, 0⟩ } := by
  have hb : BitVec.ofNat 8 (16 * cls.toNat + c.toNat) = cls ++ c := by
    rw [← BitVec.toNat_inj, toNat_append_eq_add, BitVec.toNat_ofNat]
    exact Nat.mod_eq_of_lt (by omega)
  rw [midiByte_channelStatus hcls, hb]
  rfl

/-- Settles O30: the class of a status byte is its high nibble, and a system byte is one of 0xF0 to 0xFF. -/
theorem statusBytesResynchronize : Obligations.StatusBytesResynchronize := fun s =>
  ⟨fun c => next_channelStatus (by decide) c s, fun c => next_channelStatus (by decide) c s,
    fun c => next_channelStatus (by decide) c s, fun c => next_channelStatus (by decide) c s,
    fun c => next_channelStatus (by decide) c s, fun c => next_channelStatus (by decide) c s,
    fun c => next_channelStatus (by decide) c s,
    fun n => congrArg Host.Outcome.next (midiByte_system (by revert n; decide) s),
    fun n => congrArg Host.Outcome.next (midiByte_system (by revert n; decide) s),
    fun n => congrArg Host.Outcome.next (midiByte_system (by revert n; decide) s),
    congrArg Host.Outcome.next (midiByte_system (by decide) s), rfl⟩

/-! ## Data bytes: one equation per state of the parser (42_midi.md R160, R161) -/

theorem exec_midiData (b : BitVec 7) (s : State) : exec (.midiData b) s = .next (dataByte b s) :=
  congrArg Host.Outcome.next (midiByte_data b s)

theorem exec_midiData_idle (b : BitVec 7) {s : State} (h : s.midi.pstate = .idle) :
    exec (.midiData b) s = .next s := by
  simp only [exec_midiData, dataByte, h]

theorem exec_midiData_ch1 (b : BitVec 7) {s : State} (h : s.midi.pstate = .ch1) :
    exec (.midiData b) s = .next (dataFirst b s) := by
  simp only [exec_midiData, dataByte, h]

theorem exec_midiData_ch2 (b : BitVec 7) {s : State} (h : s.midi.pstate = .ch2) :
    exec (.midiData b) s = .next (dataSecond b s) := by
  simp only [exec_midiData, dataByte, h]

theorem exec_midiData_meta1 (b : BitVec 7) {s : State} (h : s.midi.pstate = .meta1) :
    exec (.midiData b) s = .next (metaFirst b s) := by
  simp only [exec_midiData, dataByte, h]

theorem exec_midiData_meta2 (b : BitVec 7) {s : State} (h : s.midi.pstate = .meta2) :
    exec (.midiData b) s = .next (metaSecond b s) := by
  simp only [exec_midiData, dataByte, h]

theorem exec_midiData_metaLen (b : BitVec 7) {s : State} (h : s.midi.pstate = .metaLen) :
    exec (.midiData b) s = .next (metaLength b s) := by
  simp only [exec_midiData, dataByte, h]

theorem exec_midiData_metaPay (b : BitVec 7) {s : State} (h : s.midi.pstate = .metaPay) :
    exec (.midiData b) s = .next (metaPayload b s) := by
  simp only [exec_midiData, dataByte, h]

/-! ## Channel messages -/

/-- The class of a status byte: its high nibble (42_midi.md R162). -/
theorem statusClass_toNat (st : Byte) : (st.extractLsb' 4 4).toNat = st.toNat / 16 := by
  rw [BitVec.extractLsb'_toNat, Nat.shiftRight_eq_div_pow, Nat.mod_eq_of_lt (by omega)]

/-- A message of class 0xC or 0xD is complete with its first data byte, which dispatches nothing (42_midi.md R165). -/
theorem dataFirst_complete (b : BitVec 7) {s : State}
    (h : s.midi.status.toNat / 16 = 0xC ∨ s.midi.status.toNat / 16 = 0xD) : dataFirst b s = s := by
  rw [← statusClass_toNat] at h
  simp only [dataFirst, ← BitVec.toNat_inj, Bool.or_eq_true, decide_eq_true_eq]
  exact if_pos h

/-- The first data byte of a message of any other class is collected (42_midi.md R165). -/
theorem dataFirst_collected (b : BitVec 7) {s : State}
    (h : ¬(s.midi.status.toNat / 16 = 0xC ∨ s.midi.status.toNat / 16 = 0xD)) :
    dataFirst b s = s.setMidi { s.midi with data1 := b, pstate := .ch2 } := by
  rw [← statusClass_toNat] at h
  simp only [dataFirst, ← BitVec.toNat_inj, Bool.or_eq_true, decide_eq_true_eq]
  exact if_neg h

/-- A message that is neither Note-Off nor Note-On dispatches nothing (42_midi.md R175). -/
theorem dispatchMidi_ignored {st : Byte} (h8 : st.toNat / 16 ≠ 0x8) (h9 : st.toNat / 16 ≠ 0x9) (d1 d2 : BitVec 7)
    (s : State) : dispatchMidi st d1 d2 s = s := by
  unfold dispatchMidi
  rw [statusClass_toNat]
  split
  · next h => exact absurd h h9
  · next h => exact absurd h h8
  · rfl

/-- Settles O31: the class of the running status says which data byte completes the message. -/
theorem dataBytesAreFramed : Obligations.DataBytesAreFramed := by
  rintro s b _ rfl
  refine ⟨exec_midiData_idle b, fun h1 hone => ?_, fun h1 htwo => ?_, fun h2 hcls => ?_⟩
  · rw [exec_midiData_ch1 b h1, dataFirst_complete b hone]
  · rw [exec_midiData_ch1 b h1, dataFirst_collected b htwo]
    rfl
  · rw [exec_midiData_ch2 b h2, dataSecond, dispatchMidi_ignored (by omega) (by omega)]
    rfl

/-! ## Notes -/

theorem dispatchMidi_noteOff (c : BitVec 4) (d1 d2 : BitVec 7) (s : State) :
    dispatchMidi ((0x8 : BitVec 4) ++ c) d1 d2 s = noteOff c s := by
  unfold dispatchMidi
  rw [BitVec.extractLsb'_append_eq_right, BitVec.extractLsb'_append_eq_left]
  rfl

/-- A Note-On is one whatever its velocity, or with velocity 0 a Note-Off where VEL0_IS_NOTE_OFF holds (42_midi.md
R172). -/
theorem dispatchMidi_noteOn (c : BitVec 4) (d1 d2 : BitVec 7) (s : State) :
    dispatchMidi ((0x9 : BitVec 4) ++ c) d1 d2 s =
      if s.cfg.vel0IsNoteOff = true ∧ d2 = 0 then noteOff c s else noteOn c d1 s := by
  unfold dispatchMidi
  rw [BitVec.extractLsb'_append_eq_right, BitVec.extractLsb'_append_eq_left]
  simp

theorem Voice.listens_iff (x : Voice) (c : BitVec 4) :
    x.listens c = true ↔ x.state ≠ .suspended ∧ x.midiChannel.toNat = c.toNat + 1 := by
  rw [Voice.listens, Bool.and_eq_true, bne_iff_ne, beq_iff_eq, and_comm]

/-- A Note-On of `n` on channel `c` restarts the voice (42_midi.md R173). -/
abbrev Voice.TakesNoteOn (c : BitVec 4) (n : BitVec 7) (x : Voice) : Prop :=
  x.state ≠ .suspended ∧ x.midiChannel.toNat = c.toNat + 1 ∧
    (x.midiMode = .pitched ∨ x.midiMode = .percussion ∧ n = x.nativeNote)

/-- A Note-Off on channel `c` silences the voice (42_midi.md R174). -/
abbrev Voice.TakesNoteOff (c : BitVec 4) (x : Voice) : Prop :=
  x.state ≠ .suspended ∧ x.midiChannel.toNat = c.toNat + 1 ∧ x.midiMode = .pitched

/-- A Percussion voice takes its native note, which is then the note of the message. -/
theorem noteOnVoice_hit (nan : F32) {c : BitVec 4} {n : BitVec 7} {x : Voice} (h : x.TakesNoteOn c n) :
    noteOnVoice nan c n x = restart nan { x with midiNote := n } := by
  obtain ⟨hs, hc, hm⟩ := h
  rw [noteOnVoice, if_pos ((x.listens_iff c).2 ⟨hs, hc⟩)]
  obtain hm | ⟨hm, rfl⟩ := hm
  · simp only [hm]
  · simp only [hm, if_pos]

theorem noteOnVoice_miss (nan : F32) {c : BitVec 4} {n : BitVec 7} {x : Voice} (h : ¬x.TakesNoteOn c n) :
    noteOnVoice nan c n x = x := by
  unfold noteOnVoice
  split
  · next hl =>
    obtain ⟨hs, hc⟩ := (x.listens_iff c).1 hl
    split
    · next hm => exact absurd ⟨hs, hc, .inl hm⟩ h
    · next hm => exact if_neg fun hn => h ⟨hs, hc, .inr ⟨hm, hn⟩⟩
    · rfl
  · rfl

theorem noteOffVoice_eq (c : BitVec 4) (x : Voice) :
    noteOffVoice c x = if x.TakesNoteOff c then { x with state := .silent } else x := by
  simp only [noteOffVoice, Bool.and_eq_true, beq_iff_eq, Voice.listens_iff, and_assoc]

/-- Settles O32: the dispatch of a Note-On is `noteOnVoice` at every voice. -/
theorem noteOnRestartsVoices : Obligations.NoteOnRestartsVoices := by
  intro s c b h2 hst hvel
  have hon : ¬(s.cfg.vel0IsNoteOff = true ∧ b = 0) := by
    rintro ⟨hcfg, rfl⟩
    obtain hoff | hb := hvel
    · exact absurd (hcfg.symm.trans hoff) (by decide)
    · exact hb rfl
  refine ⟨noteOn c s.midi.data1 (s.setMidi { s.midi with data1 := 0, pstate := .ch1 }), ?_, rfl, fun v => ?_⟩
  · rw [exec_midiData_ch2 b h2, dataSecond, hst, dispatchMidi_noteOn, State.setMidi_cfg, if_neg hon]
  · rw [noteOn, State.mapVoices_get]
    exact ⟨noteOnVoice_hit _, noteOnVoice_miss _⟩

/-- Settles O33: a Note-On of velocity 0 dispatches as a Note-Off does, and that is `noteOffVoice` at every voice. -/
theorem noteOffSilencesPitchedVoices : Obligations.NoteOffSilencesPitchedVoices := by
  intro s c b h2 hst
  refine ⟨noteOff c (s.setMidi { s.midi with data1 := 0, pstate := .ch1 }), ?_, rfl, fun v => ?_⟩
  · rw [exec_midiData_ch2 b h2, dataSecond]
    obtain hst | ⟨hst, hcfg, hb⟩ := hst
    · rw [hst, dispatchMidi_noteOff]
    · rw [hst, dispatchMidi_noteOn, State.setMidi_cfg, if_pos ⟨hcfg, hb⟩]
  · rw [noteOff, State.mapVoices_get, noteOffVoice_eq]
    exact ⟨fun h => if_pos h, fun h => if_neg h⟩

/-! ## Running status -/

theorem execAll_cons {i : Instr} {s t : State} (h : exec i s = .next t) (rest : List Instr) :
    execAll (i :: rest) s = execAll rest t := by
  rw [execAll, h]

/-- A whole message of two data bytes leaves the parser as its status byte does (42_midi.md R166). -/
theorem execAll_message {i : Instr} {st : Byte} (hi : ∀ s, exec i s = .next (s.setMidi ⟨.ch1, st, 0, 0⟩))
    (hcls : ¬(st.toNat / 16 = 0xC ∨ st.toNat / 16 = 0xD)) (n v : BitVec 7) (s : State) :
    ∃ t : State, t.midi = ⟨.ch1, st, 0, 0⟩ ∧
      ∀ rest, execAll (i :: .midiData n :: .midiData v :: rest) s = execAll rest t := by
  have hfirst := exec_midiData_ch1 n (s := s.setMidi ⟨.ch1, st, 0, 0⟩) rfl
  rw [dataFirst_collected n hcls] at hfirst
  refine ⟨dataSecond v ((s.setMidi ⟨.ch1, st, 0, 0⟩).setMidi ⟨.ch2, st, n, 0⟩), ?_, fun rest => ?_⟩
  · rw [dataSecond, dispatchMidi_frame]
    rfl
  · rw [execAll_cons (hi s), execAll_cons hfirst]
    exact execAll_cons (exec_midiData_ch2 v rfl) rest

/-- After a whole message its status byte changes nothing, so leaving it out changes nothing (42_midi.md R176). -/
theorem execAll_runningStatus {i : Instr} {st : Byte} (hi : ∀ s, exec i s = .next (s.setMidi ⟨.ch1, st, 0, 0⟩))
    (hcls : ¬(st.toNat / 16 = 0xC ∨ st.toNat / 16 = 0xD)) (n v : BitVec 7) (rest : List Instr) (s : State) :
    execAll (i :: .midiData n :: .midiData v :: rest) s = execAll (i :: .midiData n :: .midiData v :: i :: rest) s := by
  obtain ⟨t, hmidi, hmessage⟩ := execAll_message hi hcls n v s
  have hstatus : exec i t = .next t := by
    rw [hi t, ← hmidi]
    rfl
  rw [hmessage, hmessage, execAll_cons hstatus]

theorem exec_midiNoteOnStatus (c : BitVec 4) (s : State) :
    exec (.midiNoteOnStatus c) s = .next (s.setMidi ⟨.ch1, (0x9 : BitVec 4) ++ c, 0, 0⟩) :=
  congrArg Host.Outcome.next (midiByte_channelStatus (by decide) c s)

theorem exec_midiNoteOffStatus (c : BitVec 4) (s : State) :
    exec (.midiNoteOffStatus c) s = .next (s.setMidi ⟨.ch1, (0x8 : BitVec 4) ++ c, 0, 0⟩) :=
  congrArg Host.Outcome.next (midiByte_channelStatus (by decide) c s)

theorem channelStatus_class (cls c : BitVec 4) : BitVec.toNat (w := 8) (cls ++ c) / 16 = cls.toNat := by
  rw [← statusClass_toNat, BitVec.extractLsb'_append_eq_left]

/-- Settles O36: Note-On and Note-Off are messages of two data bytes. -/
theorem runningStatusRepeatsTheStatus : Obligations.RunningStatusRepeatsTheStatus := by
  intro s c n v n' v'
  have hon := execAll_runningStatus (exec_midiNoteOnStatus c) (by rw [channelStatus_class]; decide)
  have hoff := execAll_runningStatus (exec_midiNoteOffStatus c) (by rw [channelStatus_class]; decide)
  exact ⟨hon n v [.midiData n', .midiData v'] s, hoff n v [.midiData n', .midiData v'] s⟩

/-! ## Meta messages -/

theorem metaLength_zero (s : State) :
    metaLength 0 s = { s with midi := { s.midi with metaLeft := 0, pstate := .idle }, diag := s.diag ++ [.done] } := rfl

theorem metaLength_pos {b : BitVec 7} (h : b ≠ 0) (s : State) :
    metaLength b s = { s with midi := { s.midi with metaLeft := b, pstate := .metaPay } } :=
  if_neg h

/-- The payload byte that brings the count to 0 ends the message (42_midi.md R171). -/
theorem metaPayload_last (b : BitVec 7) {s : State} (h : s.midi.metaLeft = 1) :
    metaPayload b s =
      { s with midi := { s.midi with metaLeft := 0, pstate := .idle }, diag := s.diag ++ [.byte b, .done] } := by
  simp [metaPayload, h, State.emitDiag, State.setMidi]

/-- Every other payload byte is passed on, and the message goes on (42_midi.md R171). -/
theorem metaPayload_more (b : BitVec 7) {s : State} (h : s.midi.metaLeft ≠ 1) :
    metaPayload b s =
      { s with midi := { s.midi with metaLeft := s.midi.metaLeft - 1 }, diag := s.diag ++ [.byte b] } :=
  if_neg fun h0 => h (sub_eq_zero.1 h0)

/-- Settles O34: one equation per state of the pattern, split at the last byte. -/
theorem metaPatternIsFramed : Obligations.MetaPatternIsFramed := by
  intro s b
  refine ⟨exec_midiData_meta1 b, exec_midiData_meta2 b, fun hlen => ?_, fun hpay => ?_⟩
  · rw [exec_midiData_metaLen b hlen]
    by_cases hb : b = 0
    · rw [if_pos hb, if_pos hb, hb, metaLength_zero]
    · rw [if_neg hb, if_neg hb, metaLength_pos hb]
  · rw [exec_midiData_metaPay b hpay]
    by_cases hl : s.midi.metaLeft = 1
    · rw [if_pos hl, if_pos hl, metaPayload_last b hl, hl]
      rfl
    · rw [if_neg hl, if_neg hl, metaPayload_more b hl, ← hpay]

/-- The bytes 0xFF 0 0 bring the parser from any state to the length byte (42_midi.md R164, R168, R169). -/
theorem execAll_metaHeader (b : BitVec 7) (rest : List Instr) (s : State) :
    execAll (.midiMetaStart :: .midiData 0 :: .midiData 0 :: .midiData b :: rest) s =
      execAll rest (metaLength b (s.setMidi ⟨.metaLen, 0x00, 0, 0⟩)) :=
  calc
    _ = execAll (.midiData 0 :: .midiData 0 :: .midiData b :: rest) (s.setMidi ⟨.meta1, 0x00, 0, 0⟩) :=
      execAll_cons rfl _
    _ = execAll (.midiData 0 :: .midiData b :: rest) (s.setMidi ⟨.meta2, 0x00, 0, 0⟩) :=
      execAll_cons (exec_midiData_meta1 0 rfl) _
    _ = execAll (.midiData b :: rest) (s.setMidi ⟨.metaLen, 0x00, 0, 0⟩) :=
      execAll_cons (exec_midiData_meta2 0 rfl) _
    _ = execAll rest (metaLength b (s.setMidi ⟨.metaLen, 0x00, 0, 0⟩)) :=
      execAll_cons (exec_midiData_metaLen b rfl) _

/-- The payload passes, byte by byte, to the diagnostic stream, and its last byte ends the message. -/
theorem execAll_metaPayload {payload : List (BitVec 7)} (hne : payload ≠ []) (hlen : payload.length ≤ 127) {s : State}
    (hpay : s.midi.pstate = .metaPay) (hleft : s.midi.metaLeft = BitVec.ofNat 7 payload.length) :
    execAll (payload.map .midiData) s =
      .next { s with midi := { s.midi with metaLeft := 0, pstate := .idle }
                     diag := s.diag ++ payload.map .byte ++ [.done] } := by
  induction payload generalizing s with
  | nil => exact absurd rfl hne
  | cons b rest ih =>
    rw [List.map_cons, execAll_cons (exec_midiData_metaPay b hpay)]
    cases rest with
    | nil =>
      rw [metaPayload_last b hleft, List.append_assoc]
      rfl
    | cons b' rest =>
      rw [List.length_cons, List.length_cons] at hlen hleft
      have hmore : s.midi.metaLeft ≠ 1 := by
        rw [hleft, ← BitVec.toNat_ne_iff_ne, BitVec.toNat_ofNat, Nat.mod_eq_of_lt (by omega)]
        exact Nat.succ_succ_ne_one _
      have hnext : s.midi.metaLeft - 1 = BitVec.ofNat 7 (rest.length + 1) := by
        rw [hleft, BitVec.ofNat_add (rest.length + 1) 1]
        exact BitVec.add_sub_cancel _ _
      rw [metaPayload_more b hmore, ih (List.cons_ne_nil _ _) (Nat.le_of_succ_le hlen)]
      · simp
      · exact hpay
      · exact hnext

/-- Settles O35: the pattern 0xFF 0 0 n brings the parser to the payload, which may be empty. -/
theorem metaPayloadPassesThrough : Obligations.MetaPayloadPassesThrough := by
  intro s payload hlen
  rw [execAll_metaHeader]
  obtain rfl | hne := eq_or_ne payload []
  · rw [List.map_nil, List.map_nil, List.append_nil]
    exact congrArg Host.Outcome.next (metaLength_zero _)
  · have hpos : BitVec.ofNat 7 payload.length ≠ 0 := by
      rw [← BitVec.toNat_ne_iff_ne, BitVec.toNat_ofNat, Nat.mod_eq_of_lt (by omega)]
      exact mt List.length_eq_zero_iff.1 hne
    rw [metaLength_pos hpos]
    exact execAll_metaPayload hne hlen rfl rfl

end Sys2Proof.Machine

/-! SUPPORT. Binary32 values by their order (00_scope.md R6), EXP2F between integers (92_eei_decisions.md D5), and the
four CV maps on [0, 1] (43_voice.md R191 to R194). -/

namespace Sys2Proof.Machine

/-! ## Values and places -/

theorem magOf_zero : magOf 0 = 0 := rfl

theorem units_eq (x : F32) : units x = if isNeg x then -(magOf (magBits x) : Int) else magOf (magBits x) := by
  rw [units, magUnits_eq_magOf]

theorem magOf_eq_zero_iff {m : Nat} : magOf m = 0 ↔ m = 0 :=
  magOf_strictMono.injective.eq_iff' magOf_zero

/-- The places are in the order of the values (00_scope.md R6). -/
theorem place_le_iff_units_le (a b : F32) : place a ≤ place b ↔ units a ≤ units b := by
  have hle := magOf_strictMono.le_iff_le (a := magBits a) (b := magBits b)
  have hge := magOf_strictMono.le_iff_le (a := magBits b) (b := magBits a)
  have ha := magOf_eq_zero_iff (m := magBits a)
  have hb := magOf_eq_zero_iff (m := magBits b)
  rw [place_eq, place_eq, units_eq, units_eq]
  cases isNeg a <;> cases isNeg b <;> simp only [Bool.false_eq_true, if_true, if_false] <;> omega

theorem place_eq_iff_units_eq (a b : F32) : place a = place b ↔ units a = units b := by
  simp only [le_antisymm_iff, place_le_iff_units_le]

/-- Of finite values, `fLe` is the order of the values. -/
theorem fLe_iff_units {a b : F32} (ha : isFinite a = true) (hb : isFinite b = true) :
    fLe a b = true ↔ units a ≤ units b := by
  obtain ⟨hna, -⟩ := (isFinite_iff a).1 ha
  obtain ⟨hnb, -⟩ := (isFinite_iff b).1 hb
  simp only [fLe_iff_place, hna, hnb, true_and, place_le_iff_units_le]

theorem fLt_iff_units {a b : F32} (ha : isFinite a = true) (hb : isFinite b = true) :
    fLt a b = true ↔ units a < units b := by
  obtain ⟨hna, -⟩ := (isFinite_iff a).1 ha
  obtain ⟨hnb, -⟩ := (isFinite_iff b).1 hb
  simp only [fLt_iff_place, hna, hnb, true_and, ← not_le, place_le_iff_units_le]

/-- The floor of a value between two integers lies between them. -/
theorem ffloor_between {t : F32} {a b : Int} (hf : isFinite t = true) (ha : a * oneUnits ≤ units t)
    (hb : units t ≤ b * oneUnits) : a ≤ ffloor t ∧ (ffloor t < b ∨ ffloor t = b ∧ units t = b * oneUnits) := by
  obtain ⟨hlo, hhi⟩ := ffloor_isFloor t hf
  have hone := oneUnits_pos
  have hle : ffloor t ≤ b := le_of_mul_le_mul_right (hlo.trans hb) hone
  have hlt : a < ffloor t + 1 := lt_of_mul_lt_mul_right (ha.trans_lt hhi) hone.le
  refine ⟨by omega, hle.lt_or_eq.imp_right fun he => ⟨he, le_antisymm hb ?_⟩⟩
  rwa [he] at hlo

/-! ## EXP2F between integers -/

theorem place_ofPlace {n : Int} (h : 0 ≤ n) (h' : n < 2 ^ 31) : place (ofPlace n) = n := by
  have hneg : isNeg (ofPlace n) = false := (isNeg_pack _ _ (by omega)).trans (decide_eq_false (by omega))
  rw [place_eq, hneg, magBits_ofPlace (by omega), if_neg Bool.false_ne_true]
  omega

/-- A value whose place is above that of 0 is positive. -/
theorem isNeg_magBits_of_place_pos {x : F32} (h : 0 < place x) : isNeg x = false ∧ (magBits x : Int) = place x := by
  have hp := place_eq x
  cases hn : isNeg x
  · rw [hn, if_neg Bool.false_ne_true] at hp
    exact ⟨rfl, hp.symm⟩
  · rw [hn, if_pos rfl] at hp
    omega

theorem place_exp2fFrom_bounds {lo hi : Int} (base p : Int) (h0 : 0 ≤ lo) (h : lo ≤ hi) (hhi : hi < 2 ^ 31) :
    lo ≤ place (exp2fFrom lo hi base p) ∧ place (exp2fFrom lo hi base p) ≤ hi := by
  have hb := exp2fBlock_bounds 30 lo hi base (p - base).toNat h
  rw [exp2fFrom, place_ofPlace (by omega) (by omega)]
  exact hb

/-- EXP2F of a value in −126..127: a power of two at an integer, and between two of them elsewhere. -/
theorem exp2f_of_inRange {t : F32} (hf : isFinite t = true) (hlo : -126 * oneUnits ≤ units t)
    (hhi : units t ≤ 127 * oneUnits) :
    exp2f t = if place t = place (flt (ffloor t)) then pow2 (ffloor t)
      else exp2fFrom (place (pow2 (ffloor t))) (place (pow2 (ffloor t + 1))) (place (flt (ffloor t))) (place t) := by
  obtain ⟨hf127, hu127⟩ := units_flt 127 (by decide)
  obtain ⟨hf126, hu126⟩ := units_flt (-126) (by decide)
  have hhigh : ¬fLt (flt 127) t = true := by
    rw [fLt_iff_units hf127 hf, hu127]
    exact hhi.not_gt
  have hlow : ¬fLt t (flt (-126)) = true := by
    rw [fLt_iff_units hf hf126, hu126]
    exact hlo.not_gt
  rw [exp2f, ((isFinite_iff t).1 hf).1, if_neg Bool.false_ne_true, if_neg hhigh, if_neg hlow]

/-- EXP2F of a value between the integers `a` and `b` is between 2^a and 2^b (92_eei_decisions.md D5 (a), (c)). -/
theorem exp2f_between {t : F32} {a b : Int} (hlo : -126 ≤ a) (hhi : b ≤ 127) (hf : isFinite t = true)
    (ha : a * oneUnits ≤ units t) (hb : units t ≤ b * oneUnits) :
    place (pow2 a) ≤ place (exp2f t) ∧ place (exp2f t) ≤ place (pow2 b) := by
  have hone := oneUnits_pos
  obtain ⟨hak, hkb⟩ := ffloor_between hf ha hb
  obtain ⟨-, hu⟩ := units_flt (ffloor t) (by omega)
  rw [exp2f_of_inRange hf ((mul_le_mul_of_nonneg_right hlo hone.le).trans ha)
    (hb.trans (mul_le_mul_of_nonneg_right hhi hone.le)), place_pow2 (k := a) (by omega), place_pow2 (k := b) hhi]
  generalize ffloor t = k at *
  split
  · rw [place_pow2 (by omega)]
    omega
  · next hne =>
    have hlt : k < b := hkb.resolve_right fun ⟨hk, he⟩ =>
      hne ((place_eq_iff_units_eq _ _).2 (by rw [hu, he, hk]))
    rw [place_pow2 (k := k) (by omega), place_pow2 (k := k + 1) (by omega)]
    have := place_exp2fFrom_bounds (lo := (k + 127).toNat * 2 ^ 23) (hi := (k + 1 + 127).toNat * 2 ^ 23)
      (place (flt k)) (place t) (by omega) (by omega) (by omega)
    omega

/-! ## The four CV maps -/

/-- A CV value is finite, between 0 and 1.0. -/
theorem units_of_inUnit {c : F32} (h : InUnit c) : isFinite c = true ∧ 0 ≤ units c ∧ units c ≤ oneUnits := by
  have hf : isFinite c = true := isFinite_of_magBits_le (magBits_le_of_inUnit h) (by decide)
  obtain ⟨h0, h1⟩ := h
  exact ⟨hf, (fLe_iff_units (by decide) hf).1 h0, (fLe_iff_units hf (by decide)).1 h1⟩

/-- The product of two finite values does not depend on their order. -/
theorem fmul_comm (nan : F32) {a b : F32} (ha : isFinite a = true) (hb : isFinite b = true) :
    fmul nan a b = fmul nan b a := by
  obtain ⟨hna, hia⟩ := (isFinite_iff a).1 ha
  obtain ⟨hnb, hib⟩ := (isFinite_iff b).1 hb
  unfold fmul
  simp only [hna, hnb, hia, hib, Bool.or_self, Bool.false_eq_true, if_false]
  rw [Nat.mul_comm, Bool.bne_eq_xor, Bool.xor_comm]

/-- A whole number times a value in [0, 1] lies between 0 and the number. -/
theorem mul_units_bounds {c : F32} (hc : InUnit c) (k : Int) :
    min 0 k * oneUnits ≤ k * units c ∧ k * units c ≤ max 0 k * oneUnits := by
  obtain ⟨-, h0, h1⟩ := units_of_inUnit hc
  obtain hk | hk := le_total 0 k
  · rw [min_eq_left hk, max_eq_right hk, zero_mul]
    exact ⟨mul_nonneg hk h0, mul_le_mul_of_nonneg_left h1 hk⟩
  · rw [min_eq_right hk, max_eq_left hk, zero_mul]
    exact ⟨mul_le_mul_of_nonpos_left h1 hk, mul_nonpos_of_nonpos_of_nonneg hk h0⟩

/-- The product of a whole number and a CV value, rounded: it lies between 0 and the number (43_voice.md R191 to
R194). -/
theorem fmul_flt_cv (nan : F32) {c : F32} (hc : InUnit c) {k : Int} (hk : k.natAbs ≤ 2 ^ 24) :
    RoundsTo (k * units c) (fmul nan c (flt k)) ∧ min 0 k * oneUnits ≤ units (fmul nan c (flt k)) ∧
      units (fmul nan c (flt k)) ≤ max 0 k * oneUnits := by
  obtain ⟨hf, h0, h1⟩ := units_of_inUnit hc
  obtain ⟨hlo, hhi⟩ := mul_units_bounds hc k
  have hr : RoundsTo (k * units c) (fmul nan c (flt k)) := by
    refine fmul_flt_roundsTo nan c k hf hk (roundMag_lt _ ?_)
    have h2 : 2 ^ 24 * oneUnits ≤ (2 ^ 24 - 1) * 2 ^ 253 := by decide
    have : (k * units c).natAbs ≤ 2 ^ 24 * oneUnits := by
      rw [Int.natAbs_mul]
      exact Nat.mul_le_mul hk (by omega)
    omega
  obtain ⟨hfmin, humin⟩ := units_flt (min 0 k) (by omega)
  obtain ⟨hfmax, humax⟩ := units_flt (max 0 k) (by omega)
  rw [← humin] at hlo ⊢
  rw [← humax] at hhi ⊢
  exact ⟨hr, hr.le_units hfmin hlo, hr.units_le hfmax hhi⟩

/-- Of a value in 0..n the trunc is the floor, and is in 0..n. -/
theorem ftrunc_between {m : F32} {n : Int} (hf : isFinite m = true) (h0 : 0 ≤ units m) (hn : units m ≤ n * oneUnits) :
    IsFloor m (ftrunc m) ∧ 0 ≤ ftrunc m ∧ ftrunc m ≤ n := by
  have hone := oneUnits_pos
  have ht := ftrunc_isTrunc m hf
  rw [IsTrunc, if_pos h0] at ht
  obtain ⟨hlo, hhi⟩ := id ht
  have hpos : 0 < ftrunc m + 1 := lt_of_mul_lt_mul_right (a := (oneUnits : Int)) (by omega) hone.le
  exact ⟨ht, by omega, le_of_mul_le_mul_right (hlo.trans hn) hone⟩

/-- The trunc of a whole number times a CV value (43_voice.md R191, R192). -/
theorem ftrunc_fmul_cv (nan : F32) {c : F32} (hc : InUnit c) {k : Int} (hk0 : 0 ≤ k) (hk : k ≤ 2 ^ 24) :
    RoundsTo (k * units c) (fmul nan c (flt k)) ∧
      IsFloor (fmul nan c (flt k)) (ftrunc (fmul nan c (flt k))) ∧
      0 ≤ ftrunc (fmul nan c (flt k)) ∧ ftrunc (fmul nan c (flt k)) ≤ k := by
  obtain ⟨hr, hlo, hhi⟩ := fmul_flt_cv nan hc (k := k) (by omega)
  rw [min_eq_left hk0, zero_mul] at hlo
  rw [max_eq_right hk0] at hhi
  exact ⟨hr, ftrunc_between hr.1 hlo hhi⟩

theorem f1000_eq : f1000 = flt 1000 := by decide

theorem f2000_eq : f2000 = flt 2000 := by decide

theorem f5_eq : f5 = flt 5 := by decide

/-- CVLevel on [0, 1] (43_voice.md R191). -/
theorem cvLevel_eq (nan : F32) {c : F32} (hc : InUnit c) :
    ((cvLevel nan c).toNat : Int) = ftrunc (fmul nan c (flt 1000)) := by
  obtain ⟨-, -, h0, h1⟩ := ftrunc_fmul_cv nan hc (k := 1000) (by decide) (by decide)
  rw [cvLevel, f1000_eq, clampInt, BitVec.toNat_ofInt]
  omega

/-- CVPan on [0, 1] (43_voice.md R192). -/
theorem cvPan_eq (nan : F32) {c : F32} (hc : InUnit c) :
    (cvPan nan c).toInt = ftrunc (fmul nan c (flt 2000)) - 1000 := by
  obtain ⟨-, -, h0, h1⟩ := ftrunc_fmul_cv nan hc (k := 2000) (by decide) (by decide)
  rw [cvPan, f2000_eq, clampInt, BitVec.toInt_ofInt, Int.bmod_eq_of_le (by omega) (by omega)]
  omega

/-- CVSpeed, clamped to 16 bits (43_voice.md R193). -/
theorem cvSpeed_toInt (p : Params) (nan c : F32) :
    (cvSpeed p nan c).toInt =
      clampInt (ftrunc (fadd nan (flt p.speedCvMin) (fmul nan c (flt (p.speedCvMax - p.speedCvMin)))))
        (-32768) 32767 := by
  have := clampInt_bounds
    (ftrunc (fadd nan (flt p.speedCvMin) (fmul nan c (flt (p.speedCvMax - p.speedCvMin)))))
    (show (-32768 : Int) ≤ 32767 by decide)
  rw [cvSpeed, BitVec.toInt_ofInt, Int.bmod_eq_of_le (by omega) (by omega)]

/-- The sum of two values of magnitude at most 2^24 is their exact sum, rounded. -/
theorem fadd_small_roundsTo (nan : F32) {a b : F32} (ha : isFinite a = true) (hb : isFinite b = true)
    (hau : (units a).natAbs ≤ 2 ^ 24 * oneUnits) (hbu : (units b).natAbs ≤ 2 ^ 24 * oneUnits) :
    RoundsTo (units a + units b) (fadd nan a b) := by
  have h2 : 2 ^ 24 * oneUnits + 2 ^ 24 * oneUnits ≤ (2 ^ 24 - 1) * 2 ^ 253 := by decide
  exact fadd_roundsTo nan a b ha hb (roundMag_lt _ (by omega))

/-- The sum that CVSpeed truncates (43_voice.md R193). -/
theorem cvSpeed_sum_roundsTo {p : Params} (hp : p.Legal) (nan : F32) {c : F32} (hc : InUnit c) :
    RoundsTo (p.speedCvMin * oneUnits + units (fmul nan c (flt (p.speedCvMax - p.speedCvMin))))
      (fadd nan (flt p.speedCvMin) (fmul nan c (flt (p.speedCvMax - p.speedCvMin)))) := by
  obtain ⟨-, -, -, -, -, -, -, -, hmin, hdiff⟩ := hp
  obtain ⟨hfmin, humin⟩ := units_flt p.speedCvMin (by omega)
  obtain ⟨hr, hlo, hhi⟩ := fmul_flt_cv nan hc (k := p.speedCvMax - p.speedCvMin) (by omega)
  have hone := oneUnits_pos
  rw [← humin]
  refine fadd_small_roundsTo nan hfmin hr.1 ?_ ?_
  · rw [humin, Int.natAbs_mul]
    exact Nat.mul_le_mul_right _ (by omega)
  · have h1 := mul_le_mul_of_nonneg_right (show (-2 ^ 24 : Int) ≤ min 0 (p.speedCvMax - p.speedCvMin) by omega) hone.le
    have h2 := mul_le_mul_of_nonneg_right (show max 0 (p.speedCvMax - p.speedCvMin) ≤ (2 ^ 24 : Int) by omega) hone.le
    omega

/-- The exponent of CVPitch: 5c − 2, each operation rounded, between −2 and 3 (43_voice.md R194). -/
theorem cvPitch_exponent (nan : F32) {c : F32} (hc : InUnit c) :
    RoundsTo (5 * units c) (fmul nan f5 c) ∧
      RoundsTo (units (fmul nan f5 c) - 2 * oneUnits) (fsub nan (fmul nan f5 c) f2) ∧
      -2 * oneUnits ≤ units (fsub nan (fmul nan f5 c) f2) ∧ units (fsub nan (fmul nan f5 c) f2) ≤ 3 * oneUnits := by
  obtain ⟨hf, -, -⟩ := units_of_inUnit hc
  rw [fmul_comm nan (by decide) hf, f5_eq]
  obtain ⟨hr, hlo, hhi⟩ := fmul_flt_cv nan hc (k := 5) (by decide)
  generalize fmul nan c (flt 5) = m at *
  norm_num at hlo hhi
  have hu2 : units (fneg f2) = -(2 * oneUnits) := by decide
  have hsub : RoundsTo (units m - 2 * oneUnits) (fsub nan m f2) := by
    rw [sub_eq_add_neg, ← hu2]
    exact fadd_small_roundsTo nan hr.1 (by decide) (by omega) (by decide)
  obtain ⟨hf3, hu3⟩ := units_flt 3 (by decide)
  refine ⟨hr, hsub, ?_, ?_⟩
  · have := hsub.le_units (z := fneg f2) (by decide) (by omega)
    omega
  · rw [← hu3]
    exact hsub.units_le hf3 (by omega)

/-- Settles O28: the exponent is between −2 and 3, and EXP2F between integers is between their powers of two. -/
theorem pitchCvSpansFiveOctaves : Obligations.PitchCvSpansFiveOctaves := by
  intro nan c hc
  obtain ⟨-, hsub, hlo, hhi⟩ := cvPitch_exponent nan hc
  obtain ⟨h1, h2⟩ := exp2f_between (a := -2) (b := 3) (by decide) (by decide) hsub.1 hlo hhi
  have hpos : 0 < place (exp2f (fsub nan (fmul nan f5 c) f2)) := h1.trans_lt' (by decide)
  obtain ⟨-, hm⟩ := isNeg_magBits_of_place_pos hpos
  have h8 : place (pow2 3) = 0x41000000 := by decide
  have hn : isNaN (cvPitch nan c) = false := isNaN_eq_false (by rw [cvPitch]; omega)
  exact ⟨(fLe_iff_place _ _).2 ⟨by decide, hn, h1⟩, (fLe_iff_place _ _).2 ⟨hn, by decide, h2⟩⟩

end Sys2Proof.Machine

/-! SUPPORT. The sign of the increment (44_mixer.md R212 (c)), for every frame count that the field BUF_FRAMES holds. -/

namespace Sys2Proof.Machine

/-! ## The sign of an operation's result -/

theorem roundMag_le_inf (n d : Nat) : roundMag n d ≤ 0x7F800000 := by
  unfold roundMag
  dsimp only
  split
  · exact le_rfl
  · exact min_le_right _ _

theorem isNeg_pack_roundMag (neg : Bool) (n d : Nat) : isNeg (pack neg (roundMag n d)) = neg :=
  isNeg_pack _ _ ((roundMag_le_inf n d).trans_lt (by decide))

/-- The sign of a product of finite values (00_scope.md R6). -/
theorem isNeg_fmul (nan : F32) {a b : F32} (ha : isFinite a = true) (hb : isFinite b = true) :
    isNeg (fmul nan a b) = (isNeg a != isNeg b) := by
  obtain ⟨hna, hia⟩ := (isFinite_iff a).1 ha
  obtain ⟨hnb, hib⟩ := (isFinite_iff b).1 hb
  unfold fmul
  simp only [hna, hnb, hia, hib, Bool.or_self, Bool.false_eq_true, if_false]
  exact isNeg_pack_roundMag _ _ _

/-- The sign of a quotient of finite values, the divisor not being a zero. -/
theorem isNeg_fdiv (nan : F32) {a b : F32} (ha : isFinite a = true) (hb : isFinite b = true) (h0 : magUnits b ≠ 0) :
    isNeg (fdiv nan a b) = (isNeg a != isNeg b) := by
  obtain ⟨hna, hia⟩ := (isFinite_iff a).1 ha
  obtain ⟨hnb, hib⟩ := (isFinite_iff b).1 hb
  unfold fdiv
  simp only [hna, hnb, hia, hib, h0, Bool.or_self, Bool.false_eq_true, if_false]
  exact isNeg_pack_roundMag _ _ _

/-! ## The factors of the increment -/

/-- The speed over 1000 (44_mixer.md R212). -/
def speedRatio (nan : F32) (x : Voice) : F32 := fdiv nan (flt x.speed.toInt) f1000

/-- The factor of the semitone offset, EXP2F(e/12) (44_mixer.md R212). -/
def semitoneFactor (nan : F32) (x : Voice) : F32 := exp2f (fdiv nan (flt (semitones x)) f12)

/-- The increment is the speed ratio times the pitch factor times the semitone factor, over N (44_mixer.md R212). -/
theorem increment_eq (nan : F32) (x : Voice) : increment nan x =
    fdiv nan (fmul nan (fmul nan (speedRatio nan x) x.pitchFactor) (semitoneFactor nan x)) (flt x.bufFrames.toNat) :=
  rfl

theorem speed_natAbs_le (x : Voice) : x.speed.toInt.natAbs ≤ 32768 := by
  have := x.speed.toInt_lt
  have := x.speed.le_toInt
  omega

/-- The speed ratio has the sign of the speed, and is below 64 in magnitude. -/
theorem speedRatio_bounds (nan : F32) (x : Voice) :
    magBits (speedRatio nan x) ≤ 0x42800000 ∧ isNeg (speedRatio nan x) = decide (x.speed.toInt < 0) := by
  have habs := speed_natAbs_le x
  have hbits := magBits_flt_le (m := 0x47000000) habs (by decide) (by decide)
  refine ⟨magBits_fdiv_le nan hbits (by decide) le_rfl (by decide) (by decide) (by decide) (by decide), ?_⟩
  rw [speedRatio, isNeg_fdiv nan (isFinite_of_magBits_le hbits (by decide)) (by decide) (by decide),
    isNeg_flt _ (by omega), show isNeg f1000 = false by decide, Bool.bne_false]

theorem magBits_speedRatio_zero (nan : F32) {x : Voice} (h : x.speed = 0) : magBits (speedRatio nan x) ≤ 0 := by
  rw [speedRatio, h]
  exact magBits_fdiv_le nan (ma := 0) (by decide) (by decide) le_rfl (by decide) (by decide) (by decide) (by decide)

/-- The semitone factor is positive and at most 2^22: its exponent lies between −22 and 22. -/
theorem semitoneFactor_bounds (nan : F32) (x : Voice) :
    magBits (semitoneFactor nan x) ≤ 0x4A800000 ∧ isNeg (semitoneFactor nan x) = false := by
  have habs : (semitones x).natAbs ≤ 255 := by
    have := x.midiNote.isLt
    have := x.nativeNote.isLt
    have := x.transpose.toInt_lt
    have := x.transpose.le_toInt
    unfold semitones
    omega
  have hbits : magBits (fdiv nan (flt (semitones x)) f12) ≤ 0x41B00000 :=
    magBits_fdiv_le nan (magBits_flt_le (m := 0x437F0000) habs (by decide) (by decide)) (by decide) le_rfl
      (by decide) (by decide) (by decide) (by decide)
  have hmag : magUnits (fdiv nan (flt (semitones x)) f12) ≤ 22 * oneUnits := (magUnits_le hbits).trans (by decide)
  have hunits : -22 * oneUnits ≤ units (fdiv nan (flt (semitones x)) f12) ∧
      units (fdiv nan (flt (semitones x)) f12) ≤ 22 * oneUnits := by
    unfold units
    split <;> omega
  obtain ⟨hlo, hhi⟩ := hunits
  obtain ⟨h1, h2⟩ := exp2f_between (a := -22) (b := 22) (by decide) (by decide)
    (isFinite_of_magBits_le hbits (by decide)) hlo hhi
  have hpos : 0 < place (semitoneFactor nan x) := h1.trans_lt' (by decide)
  obtain ⟨hneg, hm⟩ := isNeg_magBits_of_place_pos hpos
  have h22 : place (pow2 22) = 0x4A800000 := by decide
  refine ⟨?_, hneg⟩
  rw [semitoneFactor] at *
  omega

/-- The frame count of a bound voice as binary32: at least 1.0. -/
theorem flt_frames_bounds {n : Nat} (h0 : n ≠ 0) (h : n < 2 ^ 25) :
    isFinite (flt n) = true ∧ isNeg (flt n) = false ∧ oneUnits ≤ magUnits (flt n) := by
  have hlt : roundMag ((n * oneUnits : Int)).natAbs 1 < 0x7F800000 := by
    refine roundMag_lt _ ?_
    rw [Int.natAbs_mul, Int.natAbs_natCast, Int.natAbs_natCast]
    calc n * oneUnits ≤ 2 ^ 25 * oneUnits := Nat.mul_le_mul_right _ h.le
      _ ≤ _ := by decide
  have hone := oneUnits_pos
  have hpos : (oneUnits : Int) ≤ n * oneUnits := by
    have : (1 : Int) ≤ n := by omega
    nlinarith
  have heq : flt n = pack false (roundMag (n * oneUnits : Int).natAbs 1) := by
    rw [flt, Int.natAbs_mul, Int.natAbs_natCast, Int.natAbs_natCast, decide_eq_false (by omega)]
  have hr : RoundsTo (n * oneUnits) (flt n) := by
    rw [heq]
    exact pack_roundsTo _ _ hlt fun _ => (decide_eq_false (by omega)).symm
  have hneg : isNeg (flt n) = false := by
    rw [heq]
    exact isNeg_pack_roundMag _ _ _
  have hle : units f1 ≤ units (flt n) := hr.le_units (by decide) (by rwa [show units f1 = oneUnits by decide])
  rw [show units f1 = oneUnits by decide, units, hneg, if_neg Bool.false_ne_true] at hle
  exact ⟨hr.1, hneg, by exact_mod_cast hle⟩

/-! ## The increment -/

/-- The dividend of the increment: below 2^45 in magnitude, with the sign of the speed times that of the pitch factor,
and a zero where the speed is 0 (44_mixer.md R212). -/
theorem increment_dividend_bounds (nan : F32) {x : Voice} (hpitch : (pitchOperand x.pitchFactor).isSome = true) :
    let dividend := fmul nan (fmul nan (speedRatio nan x) x.pitchFactor) (semitoneFactor nan x)
    magBits dividend ≤ 0x56000000 ∧ isNeg dividend = (decide (x.speed.toInt < 0) != isNeg x.pitchFactor) ∧
      (x.speed = 0 → magBits dividend ≤ 0) := by
  rw [pitchOperand_isSome_iff] at hpitch
  obtain ⟨hs, hsneg⟩ := speedRatio_bounds nan x
  obtain ⟨hg, hgneg⟩ := semitoneFactor_bounds nan x
  have hm : magBits (fmul nan (speedRatio nan x) x.pitchFactor) ≤ 0x4A800000 :=
    magBits_fmul_le nan hs hpitch (by decide) (by decide) (by decide) (by decide)
  have hmneg := isNeg_fmul nan (isFinite_of_magBits_le hs (by decide)) (isFinite_of_magBits_le hpitch (by decide))
  refine ⟨magBits_fmul_le nan hm hg (by decide) (by decide) (by decide) (by decide), ?_, fun h0 => ?_⟩
  · rw [isNeg_fmul nan (isFinite_of_magBits_le hm (by decide)) (isFinite_of_magBits_le hg (by decide)), hmneg, hsneg,
      hgneg, Bool.bne_false]
  · have hm0 : magBits (fmul nan (speedRatio nan x) x.pitchFactor) ≤ 0 :=
      magBits_fmul_le nan (magBits_speedRatio_zero nan h0) hpitch (by decide) (by decide) (by decide) (by decide)
    exact magBits_fmul_le nan hm0 hg (by decide) (by decide) (by decide) (by decide)

/-- The increment of a bound voice of legal pitch factor: finite, with the sign of the speed times that of the pitch
factor, and a zero where the speed is 0 (44_mixer.md R212 (c)). -/
theorem increment_sign (nan : F32) {x : Voice} (hN : x.bufFrames ≠ 0)
    (hpitch : (pitchOperand x.pitchFactor).isSome = true) :
    isFinite (increment nan x) = true ∧
    isNeg (increment nan x) = (decide (x.speed.toInt < 0) != isNeg x.pitchFactor) ∧
    (x.speed = 0 → magUnits (increment nan x) = 0) := by
  obtain ⟨hd, hdneg, hd0⟩ := increment_dividend_bounds nan hpitch
  obtain ⟨hNf, hNneg, hNm⟩ := flt_frames_bounds (n := x.bufFrames.toNat)
    (fun h => hN (BitVec.eq_of_toNat_eq h)) x.bufFrames.isLt
  have hone : 0 < oneUnits := by decide
  have hle : magBits (increment nan x) ≤ 0x56000000 :=
    magBits_fdiv_le nan hd hNf hNm hone (by decide) (by decide) le_rfl
  refine ⟨isFinite_of_magBits_le hle (by decide), ?_, fun h0 => ?_⟩
  · rw [increment_eq, isNeg_fdiv nan (isFinite_of_magBits_le hd (by decide)) hNf (by omega), hdneg, hNneg,
      Bool.bne_false]
  · have hle0 : magBits (increment nan x) ≤ 0 :=
      magBits_fdiv_le nan (hd0 h0) hNf hNm hone (by decide) (by decide) (by decide)
    exact Nat.le_zero.1 (magUnits_le hle0)

/-- A finite value is below 0 where its sign bit is set and it is not a zero. -/
theorem fLt_f0_iff {x : F32} (hf : isFinite x = true) : fLt x f0 = true ↔ isNeg x = true ∧ magUnits x ≠ 0 := by
  rw [fLt_iff_units hf (by decide), show units f0 = 0 by decide, units]
  cases isNeg x
  · simp
  · simp [Nat.pos_iff_ne_zero]


end Sys2Proof.Machine

/-! SUPPORT. What the prologue of a callback makes of one voice: CV application (43_voice.md R190), then mode evaluation
(R200 to R203). -/

namespace Sys2Proof.Machine

/-! ## CV application -/

/-- CV application of a voice that is not Suspended (43_voice.md R190). -/
theorem cvApplyVoice_of_active (p : Params) (cv : Oct F32) (nan : F32) {x : Voice} (hs : x.state ≠ .suspended) :
    cvApplyVoice p cv nan x =
      { x with
        level := if x.cvrLevel = 0 then x.level else cvLevel nan (routed cv x.cvrLevel)
        pan := if x.cvrPan = 0 then x.pan else cvPan nan (routed cv x.cvrPan)
        speed := if x.cvrSpeed = 0 then x.speed else cvSpeed p nan (routed cv x.cvrSpeed)
        pitchFactor := if x.cvrPitch = 0 then x.pitchFactor else cvPitch nan (routed cv x.cvrPitch) } :=
  if_neg hs

/-- A route that is not 0 selects the channel below it (43_voice.md R190 (a)). -/
theorem ite_routed {α : Type} {r : BitVec 4} {k : Fin 8} (h : r.toNat = k.val + 1) (cv : Oct F32) (a : α)
    (f : F32 → α) :
    (if r = 0 then a else f (routed cv r)) = f (cv.get k) := by
  have hr : r ≠ 0 := by
    rintro rfl
    exact absurd h (by simp)
  have hk : Fin.ofNat 8 (r.toNat - 1) = k := by
    rw [h]
    exact Fin.ofNat_val_eq_self k
  rw [if_neg hr, routed, hk]

/-- CV application leaves what mode evaluation reads but for the increment (43_voice.md R190). -/
theorem cvApplyVoice_keeps (p : Params) (cv : Oct F32) (nan : F32) (x : Voice) :
    (cvApplyVoice p cv nan x).state = x.state ∧ (cvApplyVoice p cv nan x).mode = x.mode ∧
      (cvApplyVoice p cv nan x).phase = x.phase := by
  unfold cvApplyVoice
  split
  · exact ⟨rfl, rfl, rfl⟩
  · exact ⟨rfl, rfl, rfl⟩

/-! ## Mode evaluation -/

/-- Mode evaluation writes the phase and the state only (43_voice.md R200). -/
theorem modeEvalVoice_frame (nan : F32) (rise released : Bool) (x : Voice) :
    modeEvalVoice nan rise released x =
      { x with
        phase := (modeEvalVoice nan rise released x).phase
        state := (modeEvalVoice nan rise released x).state } := by
  obtain he | ⟨-, he | he | he⟩ := modeEvalVoice_cases nan rise released x <;> rw [he]
  rfl

/-- The increment depends on neither, so mode evaluation does not change it (44_mixer.md R212). -/
theorem increment_modeEvalVoice (nan' nan : F32) (rise released : Bool) (x : Voice) :
    increment nan' (modeEvalVoice nan rise released x) = increment nan' x := by
  rw [modeEvalVoice_frame]
  rfl

theorem modeEvalVoice_looped (nan : F32) (rise released : Bool) {x : Voice} (hs : x.state ≠ .suspended)
    (hm : x.mode = .looped) : modeEvalVoice nan rise released x = loopedEval x := by
  rw [modeEvalVoice, if_neg hs, hm]

theorem modeEvalVoice_gated (nan : F32) (rise released : Bool) {x : Voice} (hs : x.state ≠ .suspended)
    (hm : x.mode = .gated) : modeEvalVoice nan rise released x = gatedEval nan rise released x := by
  rw [modeEvalVoice, if_neg hs, hm]

theorem modeEvalVoice_triggered (nan : F32) (rise released : Bool) {x : Voice} (hs : x.state ≠ .suspended)
    (hm : x.mode = .triggered) : modeEvalVoice nan rise released x = triggeredEval nan rise x := by
  rw [modeEvalVoice, if_neg hs, hm]

/-- A rising edge restarts a Triggered and a Gated voice alike (43_voice.md R201, R203). -/
theorem modeEvalVoice_rise (nan : F32) (released : Bool) {x : Voice} (hs : x.state ≠ .suspended)
    (hm : x.mode ≠ .looped) : modeEvalVoice nan true released x = restart nan x := by
  cases hx : x.mode with
  | triggered => rw [modeEvalVoice_triggered _ _ _ hs hx]; rfl
  | gated => rw [modeEvalVoice_gated _ _ _ hs hx]; rfl
  | looped => exact absurd hx hm

/-! ## The accepted callback -/

theorem exec_cb_of_ready {s : State} (h : Ready s) (l : Byte) : exec (.cb l) s = .next (prologue l false s) := by
  rw [exec_cb, acceptCallback_of_ready h]

/-- Settles O26: the prologue's voice is the CV application of the old one but for phase and state, and each map is a
rounded product. -/
theorem callbackAppliesCv : Obligations.CallbackAppliesCv := by
  refine ⟨fun s l hready => ⟨_, exec_cb_of_ready hready l, fun v => ⟨prologue_suspended _ _ _ _, fun hs => ?_⟩⟩,
    fun p nan c hc => ⟨?_, ?_, fun hp => ?_, ?_⟩⟩
  · rw [prologue_voice, modeEvalVoice_frame, cvApplyVoice_of_active _ _ _ hs]
    exact ⟨rfl, fun h => if_pos h, fun h => if_pos h, fun h => if_pos h, fun h => if_pos h, fun k =>
      ⟨fun h => ite_routed h _ _ _, fun h => ite_routed h _ _ _, fun h => ite_routed h _ _ _,
        fun h => ite_routed h _ _ _⟩⟩
  · obtain ⟨hr, hfloor, h0, h1⟩ := ftrunc_fmul_cv nan hc (k := 1000) (by decide) (by decide)
    have heq := cvLevel_eq nan hc
    rw [← heq] at hfloor h1
    exact ⟨_, hr, hfloor, by omega⟩
  · obtain ⟨hr, hfloor, h0, h1⟩ := ftrunc_fmul_cv nan hc (k := 2000) (by decide) (by decide)
    rw [cvPan_eq nan hc, sub_add_cancel]
    exact ⟨_, hr, hfloor, by omega, by omega⟩
  · obtain ⟨-, -, -, -, -, -, -, -, -, hdiff⟩ := id hp
    obtain ⟨hr, -, -⟩ := fmul_flt_cv nan hc (k := p.speedCvMax - p.speedCvMin) (by omega)
    have hsum := cvSpeed_sum_roundsTo hp nan hc
    exact ⟨_, _, _, hr, hsum, ftrunc_isTrunc _ hsum.1, cvSpeed_toInt p nan c⟩
  · obtain ⟨hr, hsub, -, -⟩ := cvPitch_exponent nan hc
    exact ⟨_, _, hr, hsub, rfl⟩

/-- Settles O27: mode evaluation by mode and trigger bits, on the voice that CV application leaves, whose increment it
does not change; and the sign law. -/
theorem callbackEvaluatesModes : Obligations.CallbackEvaluatesModes := by
  refine ⟨fun s l hready => ⟨_, exec_cb_of_ready hready l, fun v => ⟨prologue_suspended _ _ _ _, fun hs => ?_⟩⟩,
    fun nan x hN hpitch => ?_⟩
  · obtain ⟨hstate, hmode, hphase⟩ := cvApplyVoice_keeps s.cfg s.cv (freeNaN s.draws v.val 0) (s.voices.get v)
    rw [prologue_voice, prologue_trig, increment_modeEvalVoice, ← hstate, ← hmode, ← hphase, callbackLevels,
      if_neg Bool.false_ne_true]
    rw [← hstate] at hs
    generalize cvApplyVoice s.cfg s.cv (freeNaN s.draws v.val 0) (s.voices.get v) = x at *
    generalize (debounce s.cfg l s.trig).rise.getLsbD v.val = rise
    generalize (debounce s.cfg l s.trig).released.getLsbD v.val = released
    refine ⟨fun hm => ?_, fun hm hr => ?_, fun hm hr hl => ?_, fun hm hr hl => ?_, fun hm hr => ?_⟩
    · rw [modeEvalVoice_looped _ _ _ hs hm]
      exact ⟨rfl, rfl⟩
    · rw [hr, modeEvalVoice_rise _ _ hs hm]
      exact ⟨rfl, rfl⟩
    · rw [modeEvalVoice_gated _ _ _ hs hm, hr, hl]
      exact ⟨rfl, rfl⟩
    · rw [modeEvalVoice_gated _ _ _ hs hm, hr, hl]
      exact ⟨rfl, rfl⟩
    · rw [modeEvalVoice_triggered _ _ _ hs hm, hr]
      exact ⟨rfl, rfl⟩
  · obtain ⟨hfin, hneg, hzero⟩ := increment_sign nan hN hpitch
    exact ⟨hfin, hneg, hzero, fLt_f0_iff hfin⟩

end Sys2Proof.Machine

/-! SUPPORT. Who moves a voice into and out of Suspended (43_voice.md R204): what each event and RENDER's turn make of
one voice. -/

namespace Sys2Proof.Machine

/-! ## The agents that leave Suspended alone -/

/-- What every agent but the host and RESET does to a voice: a Suspended one is not written (10_state.md R21), and no
other becomes Suspended (43_voice.md R204). -/
def KeepsSuspension (x y : Voice) : Prop :=
  (x.state = .suspended → y = x) ∧ (x.state ≠ .suspended → y.state ≠ .suspended)

theorem KeepsSuspension.refl (x : Voice) : KeepsSuspension x x := ⟨fun _ => rfl, id⟩

theorem KeepsSuspension.of_active {x y : Voice} (hx : x.state ≠ .suspended) (hy : y.state ≠ .suspended) :
    KeepsSuspension x y := ⟨fun h => absurd h hx, fun _ => hy⟩

theorem KeepsSuspension.suspended_iff {x y : Voice} (h : KeepsSuspension x y) :
    y.state = .suspended ↔ x.state = .suspended := by
  obtain ⟨hsuspended, hactive⟩ := h
  exact ⟨not_imp_not.1 hactive, fun hs => (congrArg Voice.state (hsuspended hs)).trans hs⟩

theorem modeEvalVoice_keeps (nan : F32) (rise released : Bool) (x : Voice) :
    KeepsSuspension x (modeEvalVoice nan rise released x) := by
  obtain he | ⟨hs, he | he | he⟩ := modeEvalVoice_cases nan rise released x <;> rw [he]
  · exact .refl x
  · exact .of_active hs nofun
  · exact .of_active hs nofun
  · exact .of_active hs nofun

/-- The prologue of a callback (41_trigger.md R150). -/
theorem prologue_keeps (levels : Byte) (failed : Bool) (s : State) (v : Fin 8) :
    KeepsSuspension (s.voices.get v) ((prologue levels failed s).voices.get v) := by
  refine ⟨prologue_suspended levels failed s v, fun hs => ?_⟩
  rw [prologue_voice]
  refine (modeEvalVoice_keeps _ _ _ _).2 ?_
  rwa [(cvApplyVoice_keeps _ _ _ _).1]

theorem acceptCallback_keeps (levels : Byte) (failed : Bool) (s : State) (v : Fin 8) :
    KeepsSuspension (s.voices.get v) ((acceptCallback levels failed s).voices.get v) := by
  obtain ⟨-, h⟩ | ⟨-, -, h⟩ := acceptCallback_cases levels failed s <;> rw [h]
  · exact .refl _
  · exact prologue_keeps levels failed s v

/-- A MIDI byte (42_midi.md R173, R174). -/
theorem midiByte_keeps (b : Byte) (s : State) (v : Fin 8) :
    KeepsSuspension (s.voices.get v) ((midiByte b s).voices.get v) := by
  obtain he | ⟨c, n, he⟩ | ⟨c, he⟩ := midiByte_voice_cases b s v <;> rw [he]
  · exact .refl _
  · obtain he | ⟨hs, m, he⟩ := noteOnVoice_cases (freeNaN s.draws v.val 0) c n (s.voices.get v) <;> rw [he]
    · exact .refl _
    · exact .of_active hs nofun
  · obtain he | ⟨hs, he⟩ := noteOffVoice_cases c (s.voices.get v) <;> rw [he]
    · exact .refl _
    · exact .of_active hs nofun

/-- A frame silences a voice at most (44_mixer.md R217). -/
theorem framedVoice_keeps (s : State) (v : Fin 8) (x : Voice) : KeepsSuspension x (framedVoice s v x) := by
  unfold framedVoice
  split
  · exact .refl x
  · next hs =>
    refine .of_active hs ?_
    unfold advanceVoice
    dsimp only
    split
    · decide
    · exact hs

/-- RENDER's turn: a frame, or the prologue of a held CB. -/
theorem renderStep_keeps {s t : State} (h : renderStep s = .next t) (v : Fin 8) :
    KeepsSuspension (s.voices.get v) (t.voices.get v) := by
  obtain ⟨-, he⟩ | ⟨c, rest, -, -, he⟩ | ⟨-, -, he⟩ := renderStep_cases s <;> rw [he] at h
  · rw [frameStep_voice h]
    exact framedVoice_keeps s v _
  · cases h
    exact prologue_keeps c.levels c.failed { s with held := rest } v
  · cases h
    exact .refl _

/-! ## What an event makes of one voice -/

/-- Everything the event `i` can make of voice `v`, by what it does to Suspended. -/
inductive VoiceMove (i : Instr) (v : Fin 8) (x : Voice) : Voice → Prop
  | keeps {y : Voice} (h : KeepsSuspension x y) : VoiceMove i v x y
  | reset (hi : i = .reset) : VoiceMove i v x (Voice.reset v)
  /-- The host writes a code of V.STATE (45_host.md R250). -/
  | state (d : Word) (st : PlayState) (hi : i = .wrVState v d) (hd : playStateOf d = some st) :
      VoiceMove i v x (x.withState st)
  /-- The host writes the buffer descriptor of a Suspended voice (45_host.md R265 to R268). -/
  | buffer {y : Voice} (d : Word) (hi : i ∈ [Instr.wrVBufBase v d, .wrVBufFrames v d, .wrVBufChannels v d])
      (hx : x.state = .suspended) (hy : y.state = .suspended) : VoiceMove i v x y

theorem VoiceMove.refl (i : Instr) (v : Fin 8) (x : Voice) : VoiceMove i v x x := .keeps (.refl x)

/-- A write of one voice leaves the others. -/
theorem setVoice_move {i : Instr} {w : Fin 8} {s : State} {x : Voice} (h : VoiceMove i w (s.voices.get w) x)
    (v : Fin 8) : VoiceMove i v (s.voices.get v) ((s.setVoice w x).voices.get v) := by
  rw [State.setVoice_voices, Oct.get_set]
  split
  · next hv =>
    subst hv
    exact h
  · exact .refl i v _

/-- A parameter write moves no voice into or out of Suspended: a Suspended one refuses it (45_host.md R268). -/
theorem writeParam_move (i : Instr) (w : Fin 8) {f : Voice → Option Voice} (s : State)
    (hf : ∀ x y, f x = some y → y.state = x.state) (v : Fin 8) :
    VoiceMove i v (s.voices.get v) ((writeParam w f s).voices.get v) := by
  obtain ⟨-, h⟩ | ⟨-, -, h⟩ | ⟨x, hs, hx, h⟩ := writeParam_cases w f s <;> rw [h]
  · exact .refl i v _
  · exact .refl i v _
  · exact setVoice_move (.keeps (.of_active hs (by rwa [hf _ _ hx]))) v

theorem writeParam_some_move (i : Instr) (w : Fin 8) {g : Voice → Voice} (s : State)
    (hg : ∀ x, (g x).state = x.state) (v : Fin 8) :
    VoiceMove i v (s.voices.get v) ((writeParam w (fun x => some (g x)) s).voices.get v) :=
  writeParam_move i w s (fun x _ hy => Option.some.inj hy ▸ hg x) v

theorem writeParam_map_move (i : Instr) (w : Fin 8) {α : Type} {o : Option α} {g : Voice → α → Voice} (s : State)
    (hg : ∀ x a, (g x a).state = x.state) (v : Fin 8) :
    VoiceMove i v (s.voices.get v) ((writeParam w (fun x => o.map (g x)) s).voices.get v) := by
  refine writeParam_move i w s (fun x y hy => ?_) v
  obtain ⟨a, -, rfl⟩ := Option.map_eq_some_iff.1 hy
  exact hg x a

theorem writeBuffer_move {i : Instr} {w : Fin 8} {d : Word}
    (hi : i ∈ [Instr.wrVBufBase w d, .wrVBufFrames w d, .wrVBufChannels w d]) {f : Voice → Voice} (s : State)
    (hf : ∀ x, (f x).state = x.state) (v : Fin 8) :
    VoiceMove i v (s.voices.get v) ((writeBuffer w f s).voices.get v) := by
  obtain ⟨hs, h⟩ | ⟨-, h⟩ := writeBuffer_cases w f s <;> rw [h]
  · exact setVoice_move (.buffer d hi hs ((hf _).trans hs)) v
  · exact .refl i v _

theorem writeState_move (w : Fin 8) (d : Word) (s : State) (v : Fin 8) :
    VoiceMove (.wrVState w d) v (s.voices.get v) ((writeState w d s).voices.get v) := by
  obtain ⟨-, h⟩ | ⟨-, -, -, -, h⟩ | ⟨st, hd, -, h⟩ := writeState_cases w d s <;> rw [h]
  · exact .refl _ v _
  · exact .refl _ v _
  · exact setVoice_move (.state d st rfl hd) v

theorem execWrEncCtrl_voices (d : Word) (s : State) : ∃ t, execWrEncCtrl d s = .next t ∧ t.voices = s.voices := by
  unfold execWrEncCtrl
  dsimp only
  split <;> exact ⟨_, rfl, rfl⟩

theorem reset_move (s : State) (v : Fin 8) :
    VoiceMove .reset v (s.voices.get v) (s.resetRegisters.voices.get v) := by
  rw [State.resetRegisters_voices, Oct.get_build]
  exact .reset rfl

/-- Every event moves every voice in one of the ways above. -/
theorem exec_voiceMove (i : Instr) (s : State) (v : Fin 8) :
    ∃ t, exec i s = .next t ∧ VoiceMove i v (s.voices.get v) (t.voices.get v) :=
  match i with
  | .reset => ⟨_, rfl, reset_move s v⟩
  | .cb l => ⟨_, rfl, .keeps (acceptCallback_keeps l false s v)⟩
  | .cbFail => ⟨_, rfl, .keeps (acceptCallback_keeps 0 true s v)⟩
  | .midiData _ | .midiNoteOffStatus _ | .midiNoteOnStatus _ | .midiPolyPressureStatus _ | .midiControlChangeStatus _
  | .midiProgramChangeStatus _ | .midiChannelPressureStatus _ | .midiPitchBendStatus _ | .midiSystemF0F7 _
  | .midiSystemF8FB _ | .midiSystemFCFD _ | .midiSystemFE | .midiMetaStart =>
    ⟨_, rfl, .keeps (midiByte_keeps _ s v)⟩
  | .wrEncCtrl d => by
    obtain ⟨t, ht, hv⟩ := execWrEncCtrl_voices d s
    exact ⟨t, ht, hv ▸ .refl _ v _⟩
  | .wrVState w d => ⟨_, rfl, writeState_move w d s v⟩
  | .wrVBufBase w d | .wrVBufFrames w d | .wrVBufChannels w d =>
    ⟨_, rfl, writeBuffer_move (w := w) (d := d) (by simp) s (fun _ => by rfl) v⟩
  | .wrVMode w _ | .wrVPitchf w _ | .wrVMidimode w _ => ⟨_, rfl, writeParam_map_move _ w s (fun _ _ => by rfl) v⟩
  | .wrVSpeed w _ | .wrVTranspose w _ | .wrVLevel w _ | .wrVPan w _ | .wrVMidich w _ | .wrVMidinote w _
  | .wrVNativenote w _ | .wrVCvrLevel w _ | .wrVCvrPan w _ | .wrVCvrSpeed w _ | .wrVCvrPitch w _ =>
    ⟨_, rfl, writeParam_some_move _ w s (fun _ => by rfl) v⟩
  | .tick _ _ _ | .tickFail | .rdEncValue | .rdEncButton | .wrErr _ | .wrCv _ _
  | .reservedPort5 | .reservedPort6 | .reservedPort7 | .wrRstat _ | .wrEncValue _ | .wrEncButton _ | .wrEncDelta _
  | .wrEncAccel _ | .wrEncHist _ | .wrEncKeydown _ | .wrEncDclk _ | .wrEncPresc _ | .wrEncBtnpeek _ | .wrTrigRaw _
  | .wrTrigRise _ | .wrTrigReleased _ | .wrTrigSteady _ | .wrTrigCnt _ _ | .wrMidiPstate _ | .wrMidiMeta _
  | .wrVPhase _ _ | .wrVPhaseinc _ _ | .reservedAccess true _ _
  | .rdErr | .rdRstat | .rdEncCtrl | .rdEncDelta | .rdEncAccel | .rdEncHist | .rdEncKeydown | .rdEncDclk | .rdEncPresc
  | .rdEncBtnpeek | .rdTrigRaw | .rdTrigRise | .rdTrigReleased | .rdTrigSteady | .rdTrigCnt _ | .rdCv _ | .rdMidiPstate
  | .rdMidiMeta | .rdVState _ | .rdVMode _ | .rdVPhase _ | .rdVPhaseinc _ | .rdVSpeed _ | .rdVPitchf _
  | .rdVTranspose _ | .rdVLevel _ | .rdVPan _ | .rdVMidich _ | .rdVMidinote _ | .rdVNativenote _ | .rdVMidimode _
  | .rdVCvrLevel _ | .rdVCvrPan _ | .rdVCvrSpeed _ | .rdVCvrPitch _ | .rdVBufBase _ | .rdVBufFrames _
  | .rdVBufChannels _ | .reservedAccess false _ _ => ⟨_, rfl, .refl _ v _⟩

/-! ## Who moves Suspended -/

/-- The codes of V.STATE (10_state.md R21). -/
theorem playStateOf_eq_some {d : Word} {st : PlayState} (h : playStateOf d = some st) :
    st = .silent ∧ d = 0 ∨ st = .playing ∧ d = 1 ∨ st = .suspended ∧ d = 2 := by
  unfold playStateOf at h
  split at h
  · next hd => exact .inl ⟨(Option.some.inj h).symm, BitVec.eq_of_toNat_eq hd⟩
  · next hd => exact .inr (.inl ⟨(Option.some.inj h).symm, BitVec.eq_of_toNat_eq hd⟩)
  · next hd => exact .inr (.inr ⟨(Option.some.inj h).symm, BitVec.eq_of_toNat_eq hd⟩)
  · cases h

theorem VoiceMove.suspends {i : Instr} {v : Fin 8} {x y : Voice} (h : VoiceMove i v x y) (hx : x.state ≠ .suspended)
    (hy : y.state = .suspended) : i = .reset ∨ i = .wrVState v 2 := by
  cases h with
  | keeps h => exact absurd (h.suspended_iff.1 hy) hx
  | reset hi => exact .inl hi
  | state d st hi hd =>
    obtain rfl : st = .suspended := hy
    obtain ⟨hst, -⟩ | ⟨hst, -⟩ | ⟨-, rfl⟩ := playStateOf_eq_some hd
    · cases hst
    · cases hst
    · exact .inr hi
  | buffer d hi hsusp _ => exact absurd hsusp hx

theorem VoiceMove.resumes {i : Instr} {v : Fin 8} {x y : Voice} (h : VoiceMove i v x y) (hx : x.state = .suspended)
    (hy : y.state ≠ .suspended) : i = .wrVState v 0 ∨ i = .wrVState v 1 := by
  cases h with
  | keeps h => exact absurd (h.suspended_iff.2 hx) hy
  | reset hi => exact absurd rfl hy
  | state d st hi hd =>
    obtain ⟨-, rfl⟩ | ⟨-, rfl⟩ | ⟨rfl, -⟩ := playStateOf_eq_some hd
    · exact .inl hi
    · exact .inr hi
    · exact absurd rfl hy
  | buffer d hi _ hsusp => exact absurd hsusp hy

theorem VoiceMove.writes {i : Instr} {v : Fin 8} {x y : Voice} (h : VoiceMove i v x y) (hx : x.state = .suspended)
    (hne : y ≠ x) :
    i = .reset ∨ ∃ d, i ∈ [Instr.wrVState v d, .wrVBufBase v d, .wrVBufFrames v d, .wrVBufChannels v d] := by
  cases h with
  | keeps h => exact absurd (h.1 hx) hne
  | reset hi => exact .inl hi
  | state d st hi _ => exact .inr ⟨d, hi ▸ List.mem_cons_self⟩
  | buffer d hi _ _ => exact .inr ⟨d, List.mem_cons_of_mem _ hi⟩

/-- Settles O57: every event is a `VoiceMove`, and RENDER's turn leaves Suspended alone. -/
theorem onlyHostAndResetMoveSuspended : Obligations.OnlyHostAndResetMoveSuspended := by
  refine ⟨fun i s t v h => ?_, fun s t v h => ?_⟩
  · obtain ⟨t', ht', hmove⟩ := exec_voiceMove i s v
    cases ht'.symm.trans h
    exact ⟨hmove.suspends, hmove.resumes, hmove.writes⟩
  · have hkeeps := renderStep_keeps h v
    exact ⟨hkeeps.suspended_iff, hkeeps.1⟩

end Sys2Proof.Machine

/-! SUPPORT. The mixer (44_mixer.md R210 to R221): the sample lookup by its two reads, the sums of a frame over the
Playing voices, what a frame makes of one voice, and the frames of one callback. -/

namespace Sys2Proof.Machine

/-! ## The lookup -/

/-- The bracketing frames are the floor and the next one forward, the ceiling and the one before in reverse
(44_mixer.md R214). -/
theorem bracket_eq {nan p2 inc pos fr : F32} {x : Voice} {i0 i1 : Int} (hpos : pos = fmul nan p2 (flt x.bufFrames.toNat))
    (hfin : isFinite pos = true)
    (h : if fLe f0 inc then IsFloor pos i0 ∧ i1 = i0 + 1 ∧ fr = fsub nan pos (flt i0)
      else IsCeil pos i0 ∧ i1 = i0 - 1 ∧ fr = fsub nan (flt i0) pos) :
    bracket nan x p2 inc = (i0, i1, fr) := by
  unfold bracket
  dsimp only
  rw [← hpos]
  split at h <;> obtain ⟨hi0, rfl, rfl⟩ := h
  · next hforward => rw [if_pos hforward, (ffloor_isFloor pos hfin).unique hi0]
  · next hreverse => rw [if_neg hreverse, (fceil_isCeil pos hfin).unique hi0]

section Lookup

variable {mem : Memory} {draw voice : Nat} {nan p2 inc fr a b : F32} {x : Voice} {i0 i1 : Int} {f : Fault}

/-- Both samples are read, and interpolated (44_mixer.md R214). -/
theorem lookup_of_reads (hbr : bracket nan x p2 inc = (i0, i1, fr))
    (ha : sampleRead mem draw voice 0 x (i0 % x.bufFrames.toNat) = .ok a)
    (hb : sampleRead mem draw voice 1 x (i1 % x.bufFrames.toNat) = .ok b) :
    lookup mem draw voice nan x p2 inc = .ok (interpolate nan a b fr) := by
  simp only [lookup, hbr, ha, hb]

/-- The fault of the first read is the lookup's (44_mixer.md R214 (f), 20_memory.md R75). -/
theorem lookup_of_first_fault (hbr : bracket nan x p2 inc = (i0, i1, fr))
    (ha : sampleRead mem draw voice 0 x (i0 % x.bufFrames.toNat) = .error f) :
    lookup mem draw voice nan x p2 inc = .error f := by
  simp only [lookup, hbr, ha]

/-- The second read happens after the first, whatever the fraction (44_mixer.md R214 (f)). -/
theorem lookup_of_second_fault (hbr : bracket nan x p2 inc = (i0, i1, fr))
    (ha : sampleRead mem draw voice 0 x (i0 % x.bufFrames.toNat) = .ok a)
    (hb : sampleRead mem draw voice 1 x (i1 % x.bufFrames.toNat) = .error f) :
    lookup mem draw voice nan x p2 inc = .error f := by
  simp only [lookup, hbr, ha, hb]

end Lookup

/-! ## The sums of a frame -/

/-- The lookup of voice `v` in a frame of `s`, at its pre-wrap phase (44_mixer.md R210, R214). -/
def voiceLookup (s : State) (v : Fin 8) : Except Fault F32 :=
  let x := s.voices.get v
  let nan := freeNaN s.draws v.val
  let inc := increment (nan 0) x
  lookup s.mem s.draws v.val (nan 2) x (fadd (nan 1) x.phase inc) inc

/-- The sample of voice `v` in a frame of `s`; of no account where its lookup faults, since no frame completes there. -/
def voiceSample (s : State) (v : Fin 8) : F32 :=
  match voiceLookup s v with
  | .ok sample => sample
  | .error _ => f0

theorem voiceSample_of_lookup {s : State} {v : Fin 8} {sample : F32} (h : voiceLookup s v = .ok sample) :
    voiceSample s v = sample := by
  simp only [voiceSample, h]

/-- One of the two sums after the term of voice `v` (44_mixer.md R215). -/
def addVoice (s : State) (site : Nat) (gain : F32 → Voice → F32) (sum : F32) (v : Fin 8) : F32 :=
  let x := s.voices.get v
  let nan := freeNaN s.draws v.val
  addTerm (nan site) (nan 2) sum (fmul (nan 2) (voiceSample s v) (levelGain (nan 2) x)) (gain (nan 2) x)

/-- The Playing voices among those listed, in the list's order. -/
def playingVoices (s : State) (l : List (Fin 8)) : List (Fin 8) :=
  l.filter fun v => (s.voices.get v).state = .playing

theorem mem_playingVoices {s : State} {l : List (Fin 8)} {v : Fin 8} :
    v ∈ playingVoices s l ↔ v ∈ l ∧ (s.voices.get v).state = .playing := by
  simp only [playingVoices, List.mem_filter, decide_eq_true_eq]

theorem mem_octIndices (v : Fin 8) : v ∈ octIndices := by
  revert v
  decide

/-- A Playing voice's lookup succeeds, and its term joins both sums (44_mixer.md R215). -/
theorem mixVoice_sums {s : State} {m m' : Mix} {v : Fin 8} (hv : m.voices.get v = s.voices.get v)
    (hp : (s.voices.get v).state = .playing) (h : mixVoice s m v = .ok m') :
    voiceLookup s v = .ok (voiceSample s v) ∧
    m'.l = addVoice s 3 leftGain m.l v ∧ m'.r = addVoice s 4 rightGain m.r v := by
  obtain ⟨sample, hlookup, hl, hr⟩ := mixVoice_playing s m m' v (hv ▸ hp) h
  rw [hv] at hlookup hl hr
  obtain rfl := voiceSample_of_lookup hlookup
  exact ⟨hlookup, hl, hr⟩

/-- The sums over the listed voices take the terms of the Playing ones, in order (44_mixer.md R211, R215). -/
theorem mixVoices_sums {s : State} {l : List (Fin 8)} {m m' : Mix} (hl : l.Nodup)
    (hm : ∀ v ∈ l, m.voices.get v = s.voices.get v) (h : mixVoices s l m = .ok m') :
    (∀ v ∈ playingVoices s l, voiceLookup s v = .ok (voiceSample s v)) ∧
    m'.l = (playingVoices s l).foldl (addVoice s 3 leftGain) m.l ∧
    m'.r = (playingVoices s l).foldl (addVoice s 4 rightGain) m.r := by
  induction l generalizing m with
  | nil => cases h; exact ⟨nofun, rfl, rfl⟩
  | cons w rest ih =>
    obtain ⟨hw, hrest⟩ := List.nodup_cons.1 hl
    obtain ⟨hmw, hmrest⟩ := List.forall_mem_cons.1 hm
    unfold mixVoices at h
    split at h
    · cases h
    · next m1 h1 =>
      have hm1 : ∀ v ∈ rest, m1.voices.get v = s.voices.get v := fun v hv => by
        rw [mixVoice_voices s m m1 w h1, Oct.get_set_of_ne _ _ (ne_of_mem_of_not_mem hv hw), hmrest v hv]
      obtain ⟨hlookups, hL, hR⟩ := ih hrest hm1 h
      by_cases hp : (s.voices.get w).state = .playing
      · obtain ⟨hlookup, hl1, hr1⟩ := mixVoice_sums hmw hp h1
        have he : playingVoices s (w :: rest) = w :: playingVoices s rest := List.filter_cons_of_pos (by simpa using hp)
        rw [he, List.forall_mem_cons, hL, hR, hl1, hr1]
        exact ⟨⟨hlookup, hlookups⟩, rfl, rfl⟩
      · have he : playingVoices s (w :: rest) = playingVoices s rest := List.filter_cons_of_neg (by simpa using hp)
        rw [mixVoice_quiet s m w (hmw ▸ hp)] at h1
        cases h1
        rw [he]
        exact ⟨hlookups, hL, hR⟩

/-! ## A completed frame -/

/-- What a completed frame is: every Playing voice's lookup succeeded, OUT holds the sums over the Playing voices in
index order from +0.0, and RENDER's position moves (44_mixer.md R210, R215, R218). -/
theorem frameStep_next {s t : State} (h : frameStep s = .next t) :
    (∀ v, (s.voices.get v).state = .playing → voiceLookup s v = .ok (voiceSample s v)) ∧
    ∃ voices, t = frameAdvance ({ s with voices := voices, draws := s.draws + 1 }.emitOut
      ((playingVoices s octIndices).foldl (addVoice s 3 leftGain) f0)
      ((playingVoices s octIndices).foldl (addVoice s 4 rightGain) f0)) := by
  obtain ⟨f, -, he⟩ | ⟨m, hm, -, he⟩ := frameStep_cases s <;> rw [he] at h <;> cases h
  obtain ⟨hlookups, hL, hR⟩ := mixVoices_sums (by decide) (fun _ _ => rfl) hm
  refine ⟨fun v hp => hlookups v (mem_playingVoices.2 ⟨mem_octIndices v, hp⟩), m.voices, ?_⟩
  rw [hL, hR]

theorem frameStep_audio {s t : State} (h : frameStep s = .next t) :
    t.audio = s.audio ++ [⟨(playingVoices s octIndices).foldl (addVoice s 3 leftGain) f0,
      (playingVoices s octIndices).foldl (addVoice s 4 rightGain) f0⟩] := by
  obtain ⟨-, voices, rfl⟩ := frameStep_next h
  rw [frameAdvance_frame]
  rfl

/-- A frame touches the voices, the audio stream, RENDER's position and the draw counter only (44_mixer.md R210). -/
theorem frameStep_frame {s t : State} (h : frameStep s = .next t) :
    t = { s with voices := t.voices, audio := t.audio, rBusy := t.rBusy, rFrame := t.rFrame, draws := s.draws + 1 } := by
  obtain ⟨-, voices, rfl⟩ := frameStep_next h
  rw [frameAdvance_frame]
  rfl

theorem frameStep_cfg {s t : State} (h : frameStep s = .next t) : t.cfg = s.cfg := by
  rw [frameStep_frame h]

/-- The last frame ends the callback (44_mixer.md R218). -/
theorem frameAdvance_of_last {s : State} (h : s.rFrame.toNat + 1 = s.cfg.framesPerCallback) :
    (frameAdvance s).rBusy = false ∧ (frameAdvance s).rFrame = 0 := by
  rw [frameAdvance, if_pos h]
  exact ⟨rfl, rfl⟩

/-- Any other frame moves on to the next (44_mixer.md R218). -/
theorem frameAdvance_of_more {s : State} (h : s.rFrame.toNat + 1 ≠ s.cfg.framesPerCallback) :
    (frameAdvance s).rBusy = s.rBusy ∧ (frameAdvance s).rFrame = s.rFrame + 1 := by
  rw [frameAdvance, if_neg h]
  exact ⟨rfl, rfl⟩

theorem frameStep_position_of_last {s t : State} (h : frameStep s = .next t)
    (hlast : s.rFrame.toNat + 1 = s.cfg.framesPerCallback) : t.rBusy = false ∧ t.rFrame = 0 := by
  obtain ⟨-, voices, rfl⟩ := frameStep_next h
  exact frameAdvance_of_last hlast

theorem frameStep_position_of_more {s t : State} (h : frameStep s = .next t)
    (hmore : s.rFrame.toNat + 1 ≠ s.cfg.framesPerCallback) : t.rBusy = s.rBusy ∧ t.rFrame = s.rFrame + 1 := by
  obtain ⟨-, voices, rfl⟩ := frameStep_next h
  exact frameAdvance_of_more hmore

/-- Settles O48: the samples are those of `voiceSample`, and a sum over the Playing voices is the sum over all eight
that passes over the others. -/
theorem frameEmitsOneOut : Obligations.FrameEmitsOneOut := by
  intro s t h
  obtain ⟨hlookups, -⟩ := frameStep_next h
  refine ⟨⟨voiceSample s, hlookups, ?_⟩, frameStep_frame h, frameStep_position_of_last h, frameStep_position_of_more h⟩
  rw [frameStep_audio h, playingVoices, List.foldl_filter, List.foldl_filter]
  simp only [decide_eq_true_eq]
  rfl

/-- Settles O50: a frame is stuck only at a Playing voice, and the sums over none are +0.0. -/
theorem silentFrameEmitsZero : Obligations.SilentFrameEmitsZero := by
  intro s hquiet
  obtain ⟨t, h⟩ | ⟨-, v, -, hp, -⟩ := frameStep_completes_or_misses s
  · have hnone : playingVoices s octIndices = [] :=
      List.eq_nil_iff_forall_not_mem.2 fun v hv => hquiet v (mem_playingVoices.1 hv).2
    have haudio := frameStep_audio h
    rw [hnone] at haudio
    exact ⟨t, h, haudio⟩
  · exact absurd hp (hquiet v)

theorem octIndices_filter_eq (v : Fin 8) : octIndices.filter (· = v) = [v] := by
  revert v
  decide

/-- The Playing voices where `v` is the only one. -/
theorem playingVoices_of_solo {s : State} {v : Fin 8} (hp : (s.voices.get v).state = .playing)
    (hsolo : ∀ w, w ≠ v → (s.voices.get w).state ≠ .playing) : playingVoices s octIndices = [v] := by
  have hiff : ∀ w, (s.voices.get w).state = .playing ↔ w = v := fun w =>
    ⟨not_imp_not.1 (hsolo w), fun hw => hw ▸ hp⟩
  simp only [playingVoices, hiff]
  exact octIndices_filter_eq v

/-- Settles O51: the lookup by `bracket_eq` and its two reads, and a solo voice's sums have its one term. -/
theorem soloVoiceFrameOutput : Obligations.SoloVoiceFrameOutput := by
  refine ⟨fun mem draw voice nan x p2 inc pos fr i0 i1 hpos hfin h => ?_, fun s t v hp hsolo h => ?_⟩
  · have hbr := bracket_eq hpos hfin h
    exact ⟨fun a b => lookup_of_reads hbr, fun f => lookup_of_first_fault hbr, fun a f => lookup_of_second_fault hbr⟩
  · obtain ⟨hlookups, -⟩ := frameStep_next h
    have haudio := frameStep_audio h
    rw [playingVoices_of_solo hp hsolo] at haudio
    exact ⟨voiceSample s v, hlookups v hp, haudio⟩

/-! ## One voice in a frame -/

theorem framedVoice_of_suspended (s : State) (v : Fin 8) {x : Voice} (h : x.state = .suspended) :
    framedVoice s v x = x := if_pos h

theorem framedVoice_of_active (s : State) (v : Fin 8) {x : Voice} (h : x.state ≠ .suspended) :
    framedVoice s v x = advanceVoice x (fadd (freeNaN s.draws v.val 1) x.phase (increment (freeNaN s.draws v.val 0) x))
      (increment (freeNaN s.draws v.val 0) x) := if_neg h

/-- The pre-wrap phase is at 1.0 or above, or below +0.0 (44_mixer.md R210). -/
theorem leavesUnit_iff (p2 : F32) : leavesUnit p2 = true ↔ fLe f1 p2 = true ∨ fLt p2 f0 = true := Bool.or_eq_true_iff

/-- Outside [0, 1) the phase wraps, and a Triggered voice goes Silent (44_mixer.md R216, R217). -/
theorem advanceVoice_of_leaves (x : Voice) {p2 : F32} (inc : F32) (h : leavesUnit p2 = true) :
    advanceVoice x p2 inc = { x with
      phaseIncrement := inc
      phase := wrapPhase p2
      state := if x.mode = .triggered then .silent else x.state } := by
  simp only [advanceVoice, h, Bool.true_and, beq_iff_eq, if_true]

/-- Inside [0, 1) the voice moves to the pre-wrap phase (44_mixer.md R213, R216). -/
theorem advanceVoice_of_stays (x : Voice) {p2 : F32} (inc : F32) (h : ¬leavesUnit p2 = true) :
    advanceVoice x p2 inc = { x with phaseIncrement := inc, phase := p2 } := by
  simp only [advanceVoice, h, Bool.false_and, Bool.false_eq_true, if_false]

/-- Settles O49: a completed frame makes `framedVoice` of each voice; what it does to the phase and the state goes by
whether the pre-wrap phase leaves [0, 1). -/
theorem frameAdvancesEveryVoice : Obligations.FrameAdvancesEveryVoice := by
  intro s t h v x y nan e inc p2 wraps
  have hwraps : wraps ↔ leavesUnit p2 = true := (leavesUnit_iff p2).symm
  have hy : y = framedVoice s v x := frameStep_voice h v
  refine ⟨rfl, fun hs => hy.trans (framedVoice_of_suspended s v hs), fun hs => ?_⟩
  have hadv : y = advanceVoice x p2 inc := hy.trans (framedVoice_of_active s v hs)
  rw [hwraps, hadv]
  refine ⟨rfl, fun hw => ?_, fun hw => ?_, fun hfin hw => ?_, advanceVoice_phase x inc⟩
  · rw [advanceVoice_of_leaves x inc hw]
  · rw [advanceVoice_of_stays x inc hw]
    exact ⟨rfl, rfl⟩
  · rw [advanceVoice_of_leaves x inc hw]
    obtain ⟨q, hq, hpos, he⟩ := wrapPhase_roundsTo p2 hfin
    exact ⟨ffloor p2, q, ffloor_isFloor p2 hfin, hq, hpos, he⟩

/-! ## The frames of a callback -/

/-- Turns that complete begin with a turn that completes. -/
theorem renderTurns_succ_next {n : Nat} {s t : State} (h : renderTurns (n + 1) s = .next t) :
    ∃ s1, renderStep s = .next s1 ∧ renderTurns n s1 = .next t := by
  unfold renderTurns at h
  split at h
  · next s1 h1 => exact ⟨s1, h1, h⟩
  · cases h
  · cases h

/-- `n` turns from any frame of a callback, no more than are left of it, emit `n` OUT items and move RENDER's position
by `n`; the last one ends the callback (44_mixer.md R218). -/
theorem renderTurns_in_callback {n : Nat} {s t : State} (hp : s.cfg.framesPerCallback ≤ 256) (hb : s.rBusy = true)
    (hlt : s.rFrame.toNat < s.cfg.framesPerCallback) (hn : s.rFrame.toNat + n ≤ s.cfg.framesPerCallback)
    (h : renderTurns n s = .next t) :
    t.audio.length = s.audio.length + n ∧
    (s.rFrame.toNat + n = s.cfg.framesPerCallback → t.rBusy = false ∧ t.rFrame = 0) ∧
    (s.rFrame.toNat + n < s.cfg.framesPerCallback → t.rBusy = true ∧ t.rFrame.toNat = s.rFrame.toNat + n) := by
  induction n generalizing s with
  | zero =>
    cases h
    exact ⟨rfl, fun he => absurd he (by omega), fun _ => ⟨hb, rfl⟩⟩
  | succ n ih =>
    obtain ⟨s1, h1, hrest⟩ := renderTurns_succ_next h
    rw [renderStep_of_busy hb] at h1
    have haudio : s1.audio.length = s.audio.length + 1 := by rw [frameStep_audio h1, List.length_append]; rfl
    by_cases hlast : s.rFrame.toNat + 1 = s.cfg.framesPerCallback
    · obtain rfl : n = 0 := by omega
      cases hrest
      exact ⟨haudio, fun _ => frameStep_position_of_last h1 hlast, fun hc => absurd hc (by omega)⟩
    · obtain ⟨hb1, hf1⟩ := frameStep_position_of_more h1 hlast
      have hcfg : s1.cfg = s.cfg := frameStep_cfg h1
      have hnat : s1.rFrame.toNat = s.rFrame.toNat + 1 := by rw [hf1]; bv_omega
      obtain ⟨hlength, hend, hmore⟩ := ih (hcfg ▸ hp) (hb1.trans hb) (by rw [hcfg]; omega) (by rw [hcfg]; omega) hrest
      rw [hcfg, hnat, Nat.add_assoc, Nat.add_comm 1] at hend hmore
      exact ⟨by omega, hend, hmore⟩

/-- Settles O52: `renderTurns_in_callback` from frame 0. -/
theorem callbackEmitsAllItsFrames : Obligations.CallbackEmitsAllItsFrames := by
  intro s t n hp hb hf hn h
  obtain ⟨-, -, -, -, -, -, -, ⟨hpos, hle⟩, -⟩ := hp
  have hf0 : s.rFrame.toNat = 0 := by rw [hf]; rfl
  have hrun := renderTurns_in_callback hle hb (by omega) (by omega) h
  rwa [hf0, Nat.zero_add] at hrun

end Sys2Proof.Machine

/-! SUPPORT. The host's writes (45_host.md R241 to R268, R295, R296): what a parameter write, a buffer write and a write
of V.STATE do, one equation per outcome, and the data word as a field (30_encoding.md R98). -/

namespace Sys2Proof.Machine

/-! ## Parameter writes -/

section ParameterWrites

variable {v : Fin 8} {s : State}

/-- The freeze comes before the value (45_host.md R268, 60_exceptions.md R302). -/
theorem writeParam_of_suspended {f : Voice → Option Voice} (hs : (s.voices.get v).state = .suspended) :
    writeParam v f s = s.setErr errFrozenWrite := by
  obtain ⟨-, h⟩ | ⟨hn, -⟩ | ⟨x, hn, -⟩ := writeParam_cases v f s
  · exact h
  · exact absurd hs hn
  · exact absurd hs hn

theorem writeParam_of_some {f : Voice → Option Voice} {x : Voice} (hs : (s.voices.get v).state ≠ .suspended)
    (hx : f (s.voices.get v) = some x) : writeParam v f s = s.setVoice v x := by
  obtain ⟨hsusp, -⟩ | ⟨-, hnone, -⟩ | ⟨y, -, hy, h⟩ := writeParam_cases v f s
  · exact absurd hsusp hs
  · cases hnone.symm.trans hx
  · cases hy.symm.trans hx
    exact h

theorem writeParam_of_none {f : Voice → Option Voice} (hs : (s.voices.get v).state ≠ .suspended)
    (hx : f (s.voices.get v) = none) : writeParam v f s = s.setErr errIllegalValue := by
  obtain ⟨hsusp, -⟩ | ⟨-, -, h⟩ | ⟨y, -, hy, -⟩ := writeParam_cases v f s
  · exact absurd hsusp hs
  · exact h
  · cases hy.symm.trans hx

/-- The write of an operand that is legal (45_host.md R251, R253, R260). -/
theorem writeParam_map_of_some {α : Type} {o : Option α} {a : α} {g : Voice → α → Voice}
    (hs : (s.voices.get v).state ≠ .suspended) (ho : o = some a) :
    writeParam v (fun x => o.map (g x)) s = s.setVoice v (g (s.voices.get v) a) :=
  writeParam_of_some hs (by rw [ho, Option.map_some])

/-- The write of an operand that is not (45_host.md R251, R253, R260). -/
theorem writeParam_map_of_none {α : Type} {o : Option α} {g : Voice → α → Voice}
    (hs : (s.voices.get v).state ≠ .suspended) (ho : o = none) :
    writeParam v (fun x => o.map (g x)) s = s.setErr errIllegalValue :=
  writeParam_of_none hs (by rw [ho, Option.map_none])

/-! ## Buffer writes -/

theorem writeBuffer_of_suspended {f : Voice → Voice} (hs : (s.voices.get v).state = .suspended) :
    writeBuffer v f s = s.setVoice v (f (s.voices.get v)) := by
  obtain ⟨-, h⟩ | ⟨hn, -⟩ := writeBuffer_cases v f s
  · exact h
  · exact absurd hs hn

theorem writeBuffer_of_active {f : Voice → Voice} (hs : (s.voices.get v).state ≠ .suspended) :
    writeBuffer v f s = s.setErr errFrozenWrite := by
  obtain ⟨hsusp, -⟩ | ⟨-, h⟩ := writeBuffer_cases v f s
  · exact absurd hsusp hs
  · exact h

/-! ## Writes of V.STATE -/

variable {d : Word} {st : PlayState}

theorem writeState_of_illegal (hd : playStateOf d = none) : writeState v d s = s.setErr errIllegalValue := by
  obtain ⟨-, h⟩ | ⟨st, hst, -⟩ | ⟨st, hst, -⟩ := writeState_cases v d s
  · exact h
  · cases hst.symm.trans hd
  · cases hst.symm.trans hd

theorem writeState_of_unbound (hd : playStateOf d = some st) (hst : st ≠ .suspended)
    (hb : (s.voices.get v).bound = false) : writeState v d s = s.setErr errUnsuspNobuf := by
  obtain ⟨hnone, -⟩ | ⟨-, -, -, -, h⟩ | ⟨st', hd', hb', -⟩ := writeState_cases v d s
  · cases hnone.symm.trans hd
  · exact h
  · cases hd'.symm.trans hd
    cases (hb' hst).symm.trans hb

theorem writeState_of_allowed (hd : playStateOf d = some st)
    (hb : st ≠ .suspended → (s.voices.get v).bound = true) :
    writeState v d s = s.setVoice v ((s.voices.get v).withState st) := by
  obtain ⟨hnone, -⟩ | ⟨st', hd', hst', hb', -⟩ | ⟨st', hd', -, h⟩ := writeState_cases v d s
  · cases hnone.symm.trans hd
  · cases hd'.symm.trans hd
    cases (hb hst').symm.trans hb'
  · cases hd'.symm.trans hd
    exact h

end ParameterWrites

/-- A voice has a buffer when it has frames and channels (10_state.md R36). -/
theorem bound_eq_true_iff (x : Voice) : x.bound = true ↔ x.bufFrames ≠ 0 ∧ x.bufChannels ≠ 0 := by
  rw [Voice.bound, Bool.and_eq_true, bne_iff_ne, bne_iff_ne]

theorem bound_eq_false_iff (x : Voice) : x.bound = false ↔ x.bufFrames = 0 ∨ x.bufChannels = 0 := by
  rw [← Bool.not_eq_true, bound_eq_true_iff, not_and_or, not_not, not_not]

/-! ## The data word as a field (30_encoding.md R98) -/

/-- A field that starts at 0 has an upper limit only. -/
theorem unsignedOperand_from_zero (n hi : Nat) (d : Word) :
    unsignedOperand n 0 hi d = BitVec.ofNat n (min d.toNat hi) := by rw [unsignedOperand, Nat.max_zero]

theorem playStateOf_of_gt {d : Word} (h : 2 < d.toNat) : playStateOf d = none := by
  unfold playStateOf
  match d.toNat, h with
  | _ + 3, _ => rfl

theorem playModeOf_of_gt {d : Word} (h : 2 < d.toNat) : playModeOf d = none := by
  unfold playModeOf
  match d.toNat, h with
  | _ + 3, _ => rfl

theorem midiModeOf_of_gt {d : Word} (h : 2 < d.toNat) : midiModeOf d = none := by
  unfold midiModeOf
  match d.toNat, h with
  | _ + 3, _ => rfl

/-- A code below 2 is a state that needs a buffer (45_host.md R250). -/
theorem playStateOf_of_lt {d : Word} (h : d.toNat < 2) : ∃ st, playStateOf d = some st ∧ st ≠ .suspended := by
  unfold playStateOf
  match d.toNat, h with
  | 0, _ => exact ⟨.silent, rfl, nofun⟩
  | 1, _ => exact ⟨.playing, rfl, nofun⟩

/-- The legal pitch factors, by their values: finite and of magnitude at most 65536.0 (10_state.md R26). -/
theorem pitchOperand_isSome_iff_magUnits (d : F32) :
    (pitchOperand d).isSome = true ↔ isFinite d = true ∧ magUnits d ≤ 65536 * oneUnits := by
  have hmax : magOf 0x47800000 = 65536 * oneUnits := by decide
  rw [pitchOperand_isSome_iff, magUnits_eq_magOf, ← hmax, magOf_strictMono.le_iff_le, isFinite_iff_magBits]
  omega

/-- An accepted pitch factor is the data word. -/
theorem pitchOperand_of_legal {d : F32} (h : isFinite d = true ∧ magUnits d ≤ 65536 * oneUnits) :
    pitchOperand d = some d := by
  obtain ⟨y, hy⟩ := Option.isSome_iff_exists.1 ((pitchOperand_isSome_iff_magUnits d).2 h)
  rwa [eq_of_pitchOperand hy] at hy

theorem pitchOperand_of_illegal {d : F32} (h : ¬(isFinite d = true ∧ magUnits d ≤ 65536 * oneUnits)) :
    pitchOperand d = none := by
  rwa [← pitchOperand_isSome_iff_magUnits, Option.not_isSome_iff_eq_none] at h

/-- A value above another is not at most the other. -/
theorem not_fLe_of_fLt {a b : F32} (h : fLt a b = true) : fLe b a = false := by
  obtain ⟨-, -, hlt⟩ := (fLt_iff_place a b).1 h
  rw [Bool.eq_false_iff, ne_eq, fLe_iff_place]
  rintro ⟨-, -, hle⟩
  exact absurd hlt (not_lt.2 hle)

theorem isNaN_of_fLt {a b : F32} (h : fLt a b = true) : isNaN b = false := by
  obtain ⟨-, hb, -⟩ := (fLt_iff_place a b).1 h
  exact hb

/-- A value of 1.0 or more is above +0.0. -/
theorem fLt_f0_of_fLe_f1 {d : F32} (h : fLe f1 d = true) : fLt f0 d = true := by
  obtain ⟨-, hd, hle⟩ := (fLe_iff_place f1 d).1 h
  rw [place_f1] at hle
  rw [fLt_iff_place, place_f0]
  exact ⟨isNaN_f0, hd, by omega⟩

theorem cvOperand_of_low {d : F32} (h : isNaN d = true ∨ fLe d f0 = true) : cvOperand d = f0 :=
  if_pos (Bool.or_eq_true_iff.2 h)

/-- Above +0.0 only the upper limit counts. -/
theorem cvOperand_of_pos {d : F32} (h : fLt f0 d = true) : cvOperand d = if fLe f1 d then f1 else d := by
  rw [cvOperand, isNaN_of_fLt h, not_fLe_of_fLt h, Bool.or_false, if_neg Bool.false_ne_true]

theorem cvOperand_of_high {d : F32} (h : fLe f1 d = true) : cvOperand d = f1 := by
  rw [cvOperand_of_pos (fLt_f0_of_fLe_f1 h), if_pos h]

theorem cvOperand_of_between {d : F32} (h0 : fLt f0 d = true) (h1 : fLt d f1 = true) : cvOperand d = d := by
  rw [cvOperand_of_pos h0, not_fLe_of_fLt h1, if_neg Bool.false_ne_true]

/-- The STEPS field of the data word is D[3:2] (45_host.md R240). -/
theorem encSteps_code (d : Word) : (d.extractLsb' 2 2).toNat = d.toNat / 4 % 4 := by
  rw [BitVec.extractLsb'_toNat, Nat.shiftRight_eq_div_pow]

theorem notchStepsOf_cases (d : Word) :
    d.toNat / 4 % 4 = 0 ∧ notchStepsOf (d.extractLsb' 2 2) = some .one ∨
    d.toNat / 4 % 4 = 1 ∧ notchStepsOf (d.extractLsb' 2 2) = some .two ∨
    d.toNat / 4 % 4 = 2 ∧ notchStepsOf (d.extractLsb' 2 2) = some .four ∨
    d.toNat / 4 % 4 = 3 ∧ notchStepsOf (d.extractLsb' 2 2) = none := by
  rw [← encSteps_code]
  generalize d.extractLsb' 2 2 = c
  revert c
  decide

/-! ## The statements -/

/-- Settles O37: a write to a voice that is not Suspended stores its operand, and every operand is a clamp. -/
theorem parameterWritesClamp : Obligations.ParameterWritesClamp := by
  rintro s v d x rfl hs
  have stored {g : Voice → Voice} :
      (.next (writeParam v (fun x => some (g x)) s) : Result) = .next (s.setVoice v (g (s.voices.get v))) :=
    congrArg _ (writeParam_of_some hs rfl)
  simp only [← unsignedOperand_from_zero]
  exact ⟨stored, stored, stored, stored, stored, stored, stored, stored, stored, stored, stored⟩

/-- Settles O38: an operand that is a legal value is stored, and one that is not sets ILLEGAL_VALUE. -/
theorem checkedParameterWrites : Obligations.CheckedParameterWrites := by
  rintro s v d x rfl hs
  refine ⟨?_, ?_, ?_, fun h => congrArg _ (writeParam_map_of_none hs (playModeOf_of_gt h)),
    ?_, ?_, ?_, fun h => congrArg _ (writeParam_map_of_none hs (midiModeOf_of_gt h)),
    fun h => congrArg _ (writeParam_map_of_some hs (pitchOperand_of_legal h)),
    fun h => congrArg _ (writeParam_map_of_none hs (pitchOperand_of_illegal h))⟩
  all_goals
    rintro rfl
    exact congrArg _ (writeParam_map_of_some hs rfl)

/-- Settles O39: the freeze is checked before the value, for every register of each kind. -/
theorem frozenWritesOnlySetErr : Obligations.FrozenWritesOnlySetErr := by
  refine fun s v d => ⟨fun hs i hi => ?_, fun hs i hi => ?_⟩
  · fin_cases hi <;> exact congrArg _ (writeParam_of_suspended hs)
  · fin_cases hi <;> exact congrArg _ (writeBuffer_of_active hs)

/-- Settles O40: a Suspended voice takes its buffer descriptor. -/
theorem bufferWritesWhileSuspended : Obligations.BufferWritesWhileSuspended := by
  rintro s v d x rfl hs
  have stored {f : Voice → Voice} :
      (.next (writeBuffer v f s) : Result) = .next (s.setVoice v (f (s.voices.get v))) :=
    congrArg _ (writeBuffer_of_suspended hs)
  simp only [← unsignedOperand_from_zero]
  exact ⟨stored, stored, stored⟩

/-- Settles O41: the three outcomes of `writeState`, by the code and the buffer. -/
theorem stateWriteFollowsTheRule : Obligations.StateWriteFollowsTheRule := by
  rintro s v d x rfl
  refine ⟨fun h => congrArg _ (writeState_of_illegal (playStateOf_of_gt h)), fun h hbuf => ?_, ?_, ?_, ?_⟩
  · obtain ⟨st, hd, hst⟩ := playStateOf_of_lt h
    exact congrArg _ (writeState_of_unbound hd hst ((bound_eq_false_iff _).2 hbuf))
  · rintro rfl hframes hchannels
    exact congrArg _ (writeState_of_allowed (st := .silent) rfl fun _ => (bound_eq_true_iff _).2 ⟨hframes, hchannels⟩)
  · rintro rfl hframes hchannels
    exact congrArg _ (writeState_of_allowed (st := .playing) rfl fun _ => (bound_eq_true_iff _).2 ⟨hframes, hchannels⟩)
  · rintro rfl
    exact ⟨[], congrArg Host.Outcome.next (writeState_of_allowed (st := .suspended) rfl (absurd rfl))⟩

/-- Settles O42: each of these writes is `ignoreWrite`. -/
theorem readOnlyWritesIgnored : Obligations.ReadOnlyWritesIgnored := by
  intro s d j i hi
  fin_cases hi <;> exact congrArg _ (State.ignoreWrite_eq s d)

/-- Settles O43: an address of R66 names no register, so `decodeHost` answers the reserved access. -/
theorem reservedAddressesAreInert : Obligations.ReservedAddressesAreInert :=
  ⟨fun _ _ _ => ⟨rfl, rfl⟩, fun _ _ h => ⟨decodeHost_reserved false h, decodeHost_reserved true h⟩⟩

/-- Settles O44: `cvOperand` by the place of the data word below, above and within [0, 1]. -/
theorem errAndCvWrites : Obligations.ErrAndCvWrites := by
  refine ⟨fun s d => ?_, fun s k d => ⟨cvOperand d, rfl, inUnit_cvOperand d, cvOperand_of_low, cvOperand_of_high,
    cvOperand_of_between⟩⟩
  rw [BitVec.setWidth_eq_extractLsb' (by decide)]
  rfl

/-! ## WR ENC_CTRL -/

/-- With a legal STEPS code all fields are written (45_host.md R241). -/
theorem exec_wrEncCtrl_of_some {d : Word} {n : NotchSteps} (s : State) (h : notchStepsOf (d.extractLsb' 2 2) = some n) :
    exec (.wrEncCtrl d) s = .next { s with enc := { s.enc with
      strategy := d.getLsbD 0
      primed := if d.getLsbD 0 = s.enc.strategy then s.enc.primed else false
      accelEn := d.getLsbD 1
      steps := n
      dclkEn := d.getLsbD 4 } } := by
  change execWrEncCtrl d s = _
  simp only [execWrEncCtrl, writeEncCtrl, h]
  rfl

/-- With the reserved code STEPS stays and ILLEGAL_VALUE is set; the other fields are written (45_host.md R241). -/
theorem exec_wrEncCtrl_of_none {d : Word} (s : State) (h : notchStepsOf (d.extractLsb' 2 2) = none) :
    exec (.wrEncCtrl d) s = .next { s with
      enc := { s.enc with
        strategy := d.getLsbD 0
        primed := if d.getLsbD 0 = s.enc.strategy then s.enc.primed else false
        accelEn := d.getLsbD 1
        dclkEn := d.getLsbD 4 }
      err := s.err ||| errIllegalValue } := by
  change execWrEncCtrl d s = _
  simp only [execWrEncCtrl, writeEncCtrl, h]
  rfl

/-- Settles O22: the four STEPS codes. -/
theorem encCtrlWriteFollowsTheRule : Obligations.EncCtrlWriteFollowsTheRule := by
  intro s d
  obtain ⟨hc, h⟩ | ⟨hc, h⟩ | ⟨hc, h⟩ | ⟨hc, h⟩ := notchStepsOf_cases d
  · exact ⟨_, exec_wrEncCtrl_of_some s h, rfl, rfl, by simp [hc]⟩
  · exact ⟨_, exec_wrEncCtrl_of_some s h, rfl, rfl, by simp [hc]⟩
  · exact ⟨_, exec_wrEncCtrl_of_some s h, rfl, rfl, by simp [hc]⟩
  · exact ⟨_, exec_wrEncCtrl_of_none s h, rfl, rfl, by simp [hc, errIllegalValue]⟩

end Sys2Proof.Machine

/-! SUPPORT. The host's reads outside the encoder (45_host.md R242 to R249, R269 to R292): every read is one response
and nothing else, and the response is the number of its field (30_encoding.md R99). -/

namespace Sys2Proof.Machine

/-- Of a read only the response is left to say. -/
theorem next_respond {s : State} {w w' : Word} (h : w = w') :
    (.next (s.respond w) : Result) = .next { s with responses := s.responses ++ [w'] } := h ▸ rfl

/-- A field that is read zero-extended. -/
theorem next_respond_zext32 {s : State} {n : Nat} (x : BitVec n) :
    (.next (s.respond (zext32 x)) : Result) = .next { s with responses := s.responses ++ [BitVec.ofNat 32 x.toNat] } :=
  next_respond (zext32_eq_ofNat x)

/-- A field that is read sign-extended. -/
theorem next_respond_sext32 {s : State} {n : Nat} (x : BitVec n) :
    (.next (s.respond (sext32 x)) : Result) = .next { s with responses := s.responses ++ [BitVec.ofInt 32 x.toInt] } :=
  next_respond (sext32_eq_ofInt x)

/-- Settles O45: the two enumerations by their codes, every other field by its number. -/
theorem voiceReadsRespond : Obligations.VoiceReadsRespond := by
  rintro s v x rfl
  refine ⟨next_respond ?_, next_respond ?_, rfl, rfl, next_respond_sext32 _, rfl, next_respond_sext32 _,
    next_respond_zext32 _, next_respond_sext32 _, next_respond_zext32 _⟩
  · dsimp only
    cases (s.voices.get v).state <;> rfl
  · dsimp only
    cases (s.voices.get v).mode <;> rfl

/-- Settles O46: the enumeration by its codes, every other field by its number. -/
theorem voiceRouteAndBufferReadsRespond : Obligations.VoiceRouteAndBufferReadsRespond := by
  rintro s v x rfl
  refine ⟨next_respond_zext32 _, next_respond_zext32 _, next_respond ?_, next_respond_zext32 _, next_respond_zext32 _,
    next_respond_zext32 _, next_respond_zext32 _, rfl, next_respond_zext32 _, next_respond_zext32 _⟩
  dsimp only
  cases (s.voices.get v).midiMode <;> rfl

/-- RSTAT has BUSY in bit 0 and FRAME in bits [15:8] (45_host.md R244). -/
theorem rstatBits_toNat (frame : BitVec 8) (busy : Bool) :
    (frame ++ (0 : BitVec 7) ++ BitVec.ofBool busy).toNat = 256 * frame.toNat + busy.toNat := by
  simp only [toNat_append_eq_add, BitVec.toNat_ofBool, show (0 : BitVec 7).toNat = 0 from rfl]
  omega

/-- MIDI_PSTATE has the state code at bit 0, the status at bit 8 and the data byte at bit 16 (45_host.md R271). -/
theorem midiPstateBits_toNat (m : Midi) :
    (midiPstateBits m).toNat = (parserCode m.pstate).toNat + 256 * m.status.toNat + 65536 * m.data1.toNat := by
  simp only [midiPstateBits, toNat_append_eq_add, show (0 : BitVec 5).toNat = 0 from rfl]
  omega

/-- A byte read zero-extended is the byte: its eight bits, and no other (30_encoding.md R99). -/
theorem zext32_byte (x : Byte) : (zext32 x).toNat < 256 ∧ ∀ i : Fin 8, (zext32 x).getLsbD i.val = x.getLsbD i.val := by
  have hx := x.isLt
  refine ⟨?_, fun i => ?_⟩
  · rw [zext32, BitVec.toNat_setWidth]
    omega
  · rw [zext32, BitVec.getLsbD_setWidth, decide_eq_true (by omega), Bool.true_and]

/-- The steady bit of channel i (41_trigger.md R154). -/
theorem getLsbD_steadyBits (p : Params) (cnt : Oct (BitVec 16)) (i : Fin 8) :
    (steadyBits p cnt).getLsbD i.val = decide (p.debounceThreshold ≤ (cnt.get i).toNat) := by
  rw [steadyBits, Oct.getLsbD_bits, Oct.get_build]

/-- Settles O47: the packed registers by the places of their fields, TRIG_STEADY by its bits, every other field by its
number. -/
theorem statusReadsRespond : Obligations.StatusReadsRespond := by
  intro s j pc hpc
  have hcode : (parserCode s.midi.pstate).toNat = pc := by
    subst hpc
    cases s.midi.pstate <;> rfl
  obtain ⟨hlt, hbit⟩ := zext32_byte (steadyBits s.cfg s.trig.cnt)
  rw [← rstatBits_toNat, ← hcode, ← midiPstateBits_toNat]
  refine ⟨next_respond_zext32 _, next_respond_zext32 _, rfl, next_respond_zext32 _, next_respond_zext32 _,
    next_respond_zext32 _, ⟨_, rfl, hlt, fun i => ?_⟩, next_respond_zext32 _, next_respond_zext32 _,
    next_respond_zext32 _⟩
  rw [hbit, getLsbD_steadyBits]

end Sys2Proof.Machine

/-! SUPPORT. Who writes what (60_exceptions.md R308): everything an event can write, by its agent; everything RENDER's own
turn can write of a voice; and the bits of ERR that an event can set (R300, R302). -/

namespace Sys2Proof.Machine

/-! ## What is written of a voice -/

/-- The events of RENDER (60_exceptions.md R308). -/
abbrev IsCallback (i : Instr) : Prop := i = .cbFail ∨ ∃ l, i = .cb l

/-- The host's writes of `d` to the writable registers of voice `v` (45_host.md R250 to R267). -/
abbrev voiceWrites (v : Fin 8) (d : Word) : List Instr :=
  [.wrVState v d, .wrVMode v d, .wrVSpeed v d, .wrVPitchf v d, .wrVTranspose v d, .wrVLevel v d, .wrVPan v d,
    .wrVMidich v d, .wrVMidinote v d, .wrVNativenote v d, .wrVMidimode v d, .wrVCvrLevel v d, .wrVCvrPan v d,
    .wrVCvrSpeed v d, .wrVCvrPitch v d, .wrVBufBase v d, .wrVBufFrames v d, .wrVBufChannels v d]

/-- RENDER writes seven fields of a voice, and speed, pitchFactor, level and pan only where CV is routed to them. The
voice's increment is `inc` after. -/
inductive RenderWrite (x : Voice) (inc : F32) : Voice → Prop
  | mk (state : PlayState) (phase : F32) {speed : BitVec 16} {pitchFactor : F32} {level : BitVec 10} {pan : BitVec 11}
      (hspeed : x.cvrSpeed = 0 → speed = x.speed) (hpitch : x.cvrPitch = 0 → pitchFactor = x.pitchFactor)
      (hlevel : x.cvrLevel = 0 → level = x.level) (hpan : x.cvrPan = 0 → pan = x.pan) :
      RenderWrite x inc { x with
        state := state, phase := phase, phaseIncrement := inc, speed := speed, pitchFactor := pitchFactor
        level := level, pan := pan }

/-- The field that each accepted write of a voice register writes (45_host.md R250 to R267). -/
inductive HostWrite (v : Fin 8) (d : Word) (x : Voice) : Instr → Voice → Prop
  | state (st : PlayState) (hd : playStateOf d = some st) : HostWrite v d x (.wrVState v d) (x.withState st)
  | mode (m : PlayMode) : HostWrite v d x (.wrVMode v d) { x with mode := m }
  | speed (n : BitVec 16) : HostWrite v d x (.wrVSpeed v d) { x with speed := n }
  | pitchFactor (y : F32) : HostWrite v d x (.wrVPitchf v d) { x with pitchFactor := y }
  | transpose (n : BitVec 8) : HostWrite v d x (.wrVTranspose v d) { x with transpose := n }
  | level (n : BitVec 10) : HostWrite v d x (.wrVLevel v d) { x with level := n }
  | pan (n : BitVec 11) : HostWrite v d x (.wrVPan v d) { x with pan := n }
  | midiChannel (n : BitVec 5) : HostWrite v d x (.wrVMidich v d) { x with midiChannel := n }
  | midiNote (n : BitVec 7) : HostWrite v d x (.wrVMidinote v d) { x with midiNote := n }
  | nativeNote (n : BitVec 7) : HostWrite v d x (.wrVNativenote v d) { x with nativeNote := n }
  | midiMode (m : MidiMode) : HostWrite v d x (.wrVMidimode v d) { x with midiMode := m }
  | cvrLevel (r : BitVec 4) : HostWrite v d x (.wrVCvrLevel v d) { x with cvrLevel := r }
  | cvrPan (r : BitVec 4) : HostWrite v d x (.wrVCvrPan v d) { x with cvrPan := r }
  | cvrSpeed (r : BitVec 4) : HostWrite v d x (.wrVCvrSpeed v d) { x with cvrSpeed := r }
  | cvrPitch (r : BitVec 4) : HostWrite v d x (.wrVCvrPitch v d) { x with cvrPitch := r }
  | bufBase (a : Word) : HostWrite v d x (.wrVBufBase v d) { x with bufBase := a }
  | bufFrames (n : BitVec 25) : HostWrite v d x (.wrVBufFrames v d) { x with bufFrames := n }
  | bufChannels (n : BitVec 8) : HostWrite v d x (.wrVBufChannels v d) { x with bufChannels := n }

theorem HostWrite.mem {v : Fin 8} {d : Word} {x y : Voice} {i : Instr} (h : HostWrite v d x i y) :
    i ∈ voiceWrites v d := by
  cases h <;> simp

/-- Everything the event `i` can write of voice `v`, by its agent. -/
inductive VoiceWrite (i : Instr) (v : Fin 8) (x : Voice) : Voice → Prop
  | kept : VoiceWrite i v x x
  | reset (hi : i = .reset) (y : Voice) : VoiceWrite i v x y
  | callback (hi : IsCallback i) {y : Voice} (h : RenderWrite x x.phaseIncrement y) : VoiceWrite i v x y
  | note {b : BitVec 7} (hi : i = .midiData b) (n : BitVec 7) (phase : F32) (state : PlayState) :
      VoiceWrite i v x { x with midiNote := n, phase := phase, state := state }
  | host {d : Word} {y : Voice} (h : HostWrite v d x i y) : VoiceWrite i v x y

/-! ## RENDER -/

theorem RenderWrite.refl (x : Voice) : RenderWrite x x.phaseIncrement x :=
  .mk x.state x.phase (fun _ => rfl) (fun _ => rfl) (fun _ => rfl) (fun _ => rfl)

/-- CV application (43_voice.md R190). -/
theorem cvApplyVoice_write (p : Params) (cv : Oct F32) (nan : F32) (x : Voice) :
    RenderWrite x x.phaseIncrement (cvApplyVoice p cv nan x) := by
  unfold cvApplyVoice
  split
  · exact .refl x
  · exact .mk x.state x.phase (fun h => if_pos h) (fun h => if_pos h) (fun h => if_pos h) (fun h => if_pos h)

/-- Mode evaluation after CV application (43_voice.md R200). -/
theorem RenderWrite.modeEval {x y : Voice} {inc : F32} (h : RenderWrite x inc y) (nan : F32) (rise released : Bool) :
    RenderWrite x inc (modeEvalVoice nan rise released y) := by
  rw [modeEvalVoice_frame]
  cases h with
  | mk _ _ hspeed hpitch hlevel hpan => exact .mk _ _ hspeed hpitch hlevel hpan

/-- The prologue of a callback leaves the increment (43_voice.md R200; 44_mixer.md R212). -/
theorem prologue_voice_write (levels : Byte) (failed : Bool) (s : State) (v : Fin 8) :
    RenderWrite (s.voices.get v) (s.voices.get v).phaseIncrement ((prologue levels failed s).voices.get v) := by
  rw [prologue_voice]
  exact (cvApplyVoice_write _ _ _ _).modeEval _ _ _

/-- A frame (44_mixer.md R212, R216, R217). -/
theorem framedVoice_write (s : State) (v : Fin 8) (x : Voice) :
    RenderWrite x (framedVoice s v x).phaseIncrement (framedVoice s v x) := by
  unfold framedVoice
  split
  · exact .refl x
  · exact .mk _ _ (fun _ => rfl) (fun _ => rfl) (fun _ => rfl) (fun _ => rfl)

/-- RENDER's own turn: a frame, the prologue of a held CB, or nothing. -/
theorem renderStep_voice_write {s t : State} (h : renderStep s = .next t) (v : Fin 8) :
    ∃ inc, RenderWrite (s.voices.get v) inc (t.voices.get v) := by
  obtain ⟨-, he⟩ | ⟨c, rest, -, -, he⟩ | ⟨-, -, he⟩ := renderStep_cases s <;> rw [he] at h
  · rw [frameStep_voice h]
    exact ⟨_, framedVoice_write s v _⟩
  · cases h
    exact ⟨_, prologue_voice_write c.levels c.failed { s with held := rest } v⟩
  · cases h
    exact ⟨_, .refl _⟩

/-- RENDER's own turn writes the voices, the trigger, its position, its queue, the audio stream and the model's draws. -/
theorem renderStep_frame {s t : State} (h : renderStep s = .next t) :
    t = { s with
      voices := t.voices, trig := t.trig, rBusy := t.rBusy, rFrame := t.rFrame, held := t.held, audio := t.audio
      draws := t.draws } := by
  obtain ⟨-, he⟩ | ⟨c, rest, -, -, he⟩ | ⟨-, -, he⟩ := renderStep_cases s <;> rw [he] at h
  · obtain ⟨-, voices, rfl⟩ := frameStep_next h
    rw [frameAdvance_frame]
    rfl
  · cases h
    rfl
  · cases h
    rfl

/-! ## What an event writes -/

/-- Everything the event `i` can write of the state `s`, by its agent: each constructor lists the parts it replaces. -/
inductive EventWrites (s : State) : Instr → State → Prop
  | nothing {i : Instr} : EventWrites s i s
  | reset : EventWrites s .reset s.resetRegisters
  | read {i : Instr} (hi : ∃ a, encode i = encodeRead a) (w : Word) : EventWrites s i (s.respond w)
  | tick {i : Instr} (hi : i = .tickFail ∨ ∃ a b btn, i = .tick a b btn) (c : Encoder) : EventWrites s i (s.setEnc c)
  /-- The two reads that consume (40_encoder.md R131, R132). -/
  | consume {i : Instr} (hi : i = .rdEncValue ∨ i = .rdEncButton) (c : Encoder) (w : Word) :
      EventWrites s i ((s.setEnc c).respond w)
  | encCtrl (d : Word) (c : Encoder) : EventWrites s (.wrEncCtrl d) (s.setEnc c)
  /-- The reserved STEPS code (45_host.md R241). -/
  | encCtrlIllegal (d : Word) (c : Encoder) : EventWrites s (.wrEncCtrl d) ((s.setEnc c).setErr errIllegalValue)
  | hold {i : Instr} (hi : IsCallback i) (l : List Callback) : EventWrites s i { s with held := l }
  | callback {i : Instr} (hi : IsCallback i) (levels : Byte) (failed : Bool) :
      EventWrites s i (prologue levels failed s)
  | midiStatus {i : Instr} {b : Byte} (hi : i = decodeMidi b) (m : Midi) : EventWrites s i (s.setMidi m)
  | midiData (b : BitVec 7) {voices : Oct Voice} (m : Midi) (l : List DiagItem)
      (hv : ∀ v, VoiceWrite (.midiData b) v (s.voices.get v) (voices.get v)) :
      EventWrites s (.midiData b) { s with midi := m, voices := voices, diag := l }
  | cv (k : Fin 8) (d : Word) (x : F32) : EventWrites s (.wrCv k d) (s.setCv k x)
  | clearErr (d : Word) : EventWrites s (.wrErr d) (s.clearErr d)
  /-- A write of a voice register that is rejected (45_host.md R250, R268). -/
  | rejected {i : Instr} {v : Fin 8} {d : Word} {bit : BitVec 3} (hi : i ∈ voiceWrites v d)
      (hbit : bit ∈ [errUnsuspNobuf, errIllegalValue, errFrozenWrite]) : EventWrites s i (s.setErr bit)
  | voice {i : Instr} {v : Fin 8} {d : Word} {y : Voice} (h : HostWrite v d (s.voices.get v) i y) :
      EventWrites s i (s.setVoice v y)

theorem execWrEncCtrl_writes (d : Word) (s : State) :
    ∃ t, execWrEncCtrl d s = .next t ∧ EventWrites s (.wrEncCtrl d) t := by
  unfold execWrEncCtrl
  dsimp only
  split
  · exact ⟨_, rfl, .encCtrl d _⟩
  · exact ⟨_, rfl, .encCtrlIllegal d _⟩

theorem acceptCallback_writes {i : Instr} (hi : IsCallback i) (levels : Byte) (failed : Bool) (s : State) :
    EventWrites s i (acceptCallback levels failed s) := by
  obtain ⟨-, h⟩ | ⟨-, -, h⟩ := acceptCallback_cases levels failed s <;> rw [h]
  · exact .hold hi _
  · exact .callback hi levels failed

/-- The event of a MIDI byte is the one with its words (30_encoding.md R92). -/
theorem eq_decodeMidi {i : Instr} {b : Byte} (hwf : WellFormed i = true) (henc : encode i = encodeMidi b) :
    i = decodeMidi b := by
  obtain ⟨hb, hwfb⟩ := encode_decodeMidi b
  exact encode_injective hwf hwfb (henc.trans hb.symm)

/-- A status byte writes the parser only (42_midi.md R162 to R164). -/
theorem midiByte_status_writes {i : Instr} {b : Byte} (hwf : WellFormed i = true) (henc : encode i = encodeMidi b)
    (hb : b.getLsbD 7 = true) (s : State) : EventWrites s i (midiByte b s) := by
  have hi := eq_decodeMidi hwf henc
  rw [midiByte_status b s hb]
  unfold statusByte
  split
  · exact .midiStatus hi _
  · split
    · exact .midiStatus hi _
    · exact .midiStatus hi _

/-- A note writes the note, the phase and the play state of a voice (42_midi.md R173, R174). -/
theorem midiByte_voice_write (b : BitVec 7) (b' : Byte) (s : State) (v : Fin 8) :
    VoiceWrite (.midiData b) v (s.voices.get v) ((midiByte b' s).voices.get v) := by
  obtain he | ⟨c, n, he⟩ | ⟨c, he⟩ := midiByte_voice_cases b' s v <;> rw [he]
  · exact .kept
  · obtain he | ⟨-, m, he⟩ := noteOnVoice_cases (freeNaN s.draws v.val 0) c n (s.voices.get v) <;> rw [he]
    · exact .kept
    · exact .note rfl m _ _
  · obtain he | ⟨-, he⟩ := noteOffVoice_cases c (s.voices.get v) <;> rw [he]
    · exact .kept
    · exact .note rfl _ _ _

theorem midiByte_data_writes (b : BitVec 7) (b' : Byte) (s : State) :
    EventWrites s (.midiData b) (midiByte b' s) := by
  rw [midiByte_frame]
  exact .midiData b _ _ (midiByte_voice_write b b' s)

theorem writeParam_writes {i : Instr} {v : Fin 8} {d : Word} (hi : i ∈ voiceWrites v d) {f : Voice → Option Voice}
    (s : State) (hf : ∀ y, f (s.voices.get v) = some y → HostWrite v d (s.voices.get v) i y) :
    EventWrites s i (writeParam v f s) := by
  obtain ⟨-, h⟩ | ⟨-, -, h⟩ | ⟨y, -, hy, h⟩ := writeParam_cases v f s <;> rw [h]
  · exact .rejected hi (by decide)
  · exact .rejected hi (by decide)
  · exact .voice (hf y hy)

theorem writeParam_some_writes {i : Instr} {v : Fin 8} {d : Word} {g : Voice → Voice} (s : State)
    (hg : HostWrite v d (s.voices.get v) i (g (s.voices.get v))) :
    EventWrites s i (writeParam v (fun x => some (g x)) s) :=
  writeParam_writes hg.mem s fun _ hy => Option.some.inj hy ▸ hg

theorem writeParam_map_writes {i : Instr} {v : Fin 8} {d : Word} (hi : i ∈ voiceWrites v d) {α : Type} {o : Option α}
    {g : Voice → α → Voice} (s : State) (hg : ∀ a, HostWrite v d (s.voices.get v) i (g (s.voices.get v) a)) :
    EventWrites s i (writeParam v (fun x => o.map (g x)) s) :=
  writeParam_writes hi s fun _ hy => by
    obtain ⟨a, -, rfl⟩ := Option.map_eq_some_iff.1 hy
    exact hg a

theorem writeBuffer_writes {i : Instr} {v : Fin 8} {d : Word} {f : Voice → Voice} (s : State)
    (hf : HostWrite v d (s.voices.get v) i (f (s.voices.get v))) :
    EventWrites s i (writeBuffer v f s) := by
  obtain ⟨-, h⟩ | ⟨-, h⟩ := writeBuffer_cases v f s <;> rw [h]
  · exact .voice hf
  · exact .rejected hf.mem (by decide)

theorem writeState_writes (v : Fin 8) (d : Word) (s : State) :
    EventWrites s (.wrVState v d) (writeState v d s) := by
  have hi : Instr.wrVState v d ∈ voiceWrites v d := List.mem_cons_self
  obtain ⟨-, h⟩ | ⟨-, -, -, -, h⟩ | ⟨st, hd, -, h⟩ := writeState_cases v d s <;> rw [h]
  · exact .rejected hi (by decide)
  · exact .rejected hi (by decide)
  · exact .voice (.state st hd)

/-- Every event completes and writes only what its agent may write (60_exceptions.md R304, R308). -/
theorem exec_writes (i : Instr) (s : State) : ∃ t, exec i s = .next t ∧ EventWrites s i t :=
  match i with
  | .reset => ⟨_, rfl, .reset⟩
  | .tick a b btn => ⟨_, rfl, .tick (.inr ⟨a, b, btn, rfl⟩) _⟩
  | .tickFail => ⟨_, rfl, .tick (.inl rfl) _⟩
  | .cb l => ⟨_, rfl, acceptCallback_writes (.inr ⟨l, rfl⟩) l false s⟩
  | .cbFail => ⟨_, rfl, acceptCallback_writes (.inl rfl) 0 true s⟩
  | .midiData b => ⟨_, rfl, midiByte_data_writes b _ s⟩
  | .midiNoteOffStatus n | .midiNoteOnStatus n | .midiPolyPressureStatus n | .midiControlChangeStatus n
  | .midiProgramChangeStatus n | .midiChannelPressureStatus n | .midiPitchBendStatus n | .midiSystemF0F7 n
  | .midiSystemF8FB n | .midiSystemFCFD n =>
    ⟨_, rfl, midiByte_status_writes rfl rfl (by revert n; decide) s⟩
  | .midiSystemFE | .midiMetaStart => ⟨_, rfl, midiByte_status_writes rfl rfl (by decide) s⟩
  | .wrErr d => ⟨_, rfl, .clearErr d⟩
  | .wrEncCtrl d => execWrEncCtrl_writes d s
  | .rdEncValue => ⟨_, rfl, .consume (.inl rfl) _ _⟩
  | .rdEncButton => ⟨_, rfl, .consume (.inr rfl) _ _⟩
  | .wrCv k d => ⟨_, rfl, .cv k d _⟩
  | .wrVState v d => ⟨_, rfl, writeState_writes v d s⟩
  | .wrVMode v d => ⟨_, rfl, writeParam_map_writes (by simp) s .mode⟩
  | .wrVSpeed v d => ⟨_, rfl, writeParam_some_writes s (.speed _)⟩
  | .wrVPitchf v d => ⟨_, rfl, writeParam_map_writes (by simp) s .pitchFactor⟩
  | .wrVTranspose v d => ⟨_, rfl, writeParam_some_writes s (.transpose _)⟩
  | .wrVLevel v d => ⟨_, rfl, writeParam_some_writes s (.level _)⟩
  | .wrVPan v d => ⟨_, rfl, writeParam_some_writes s (.pan _)⟩
  | .wrVMidich v d => ⟨_, rfl, writeParam_some_writes s (.midiChannel _)⟩
  | .wrVMidinote v d => ⟨_, rfl, writeParam_some_writes s (.midiNote _)⟩
  | .wrVNativenote v d => ⟨_, rfl, writeParam_some_writes s (.nativeNote _)⟩
  | .wrVMidimode v d => ⟨_, rfl, writeParam_map_writes (by simp) s .midiMode⟩
  | .wrVCvrLevel v d => ⟨_, rfl, writeParam_some_writes s (.cvrLevel _)⟩
  | .wrVCvrPan v d => ⟨_, rfl, writeParam_some_writes s (.cvrPan _)⟩
  | .wrVCvrSpeed v d => ⟨_, rfl, writeParam_some_writes s (.cvrSpeed _)⟩
  | .wrVCvrPitch v d => ⟨_, rfl, writeParam_some_writes s (.cvrPitch _)⟩
  | .wrVBufBase v d => ⟨_, rfl, writeBuffer_writes s (.bufBase _)⟩
  | .wrVBufFrames v d => ⟨_, rfl, writeBuffer_writes s (.bufFrames _)⟩
  | .wrVBufChannels v d => ⟨_, rfl, writeBuffer_writes s (.bufChannels _)⟩
  | .reservedPort5 | .reservedPort6 | .reservedPort7 | .wrRstat _ | .wrEncValue _ | .wrEncButton _ | .wrEncDelta _
  | .wrEncAccel _ | .wrEncHist _ | .wrEncKeydown _ | .wrEncDclk _ | .wrEncPresc _ | .wrEncBtnpeek _ | .wrTrigRaw _
  | .wrTrigRise _ | .wrTrigReleased _ | .wrTrigSteady _ | .wrTrigCnt _ _ | .wrMidiPstate _ | .wrMidiMeta _
  | .wrVPhase _ _ | .wrVPhaseinc _ _ | .reservedAccess true _ _ => ⟨_, rfl, .nothing⟩
  | .rdErr | .rdRstat | .rdEncCtrl | .rdEncDelta | .rdEncAccel | .rdEncHist | .rdEncKeydown | .rdEncDclk | .rdEncPresc
  | .rdEncBtnpeek | .rdTrigRaw | .rdTrigRise | .rdTrigReleased | .rdTrigSteady | .rdTrigCnt _ | .rdCv _ | .rdMidiPstate
  | .rdMidiMeta | .rdVState _ | .rdVMode _ | .rdVPhase _ | .rdVPhaseinc _ | .rdVSpeed _ | .rdVPitchf _
  | .rdVTranspose _ | .rdVLevel _ | .rdVPan _ | .rdVMidich _ | .rdVMidinote _ | .rdVNativenote _ | .rdVMidimode _
  | .rdVCvrLevel _ | .rdVCvrPan _ | .rdVCvrSpeed _ | .rdVCvrPitch _ | .rdVBufBase _ | .rdVBufFrames _
  | .rdVBufChannels _ | .reservedAccess false _ _ => ⟨_, rfl, .read ⟨_, rfl⟩ _⟩

/-! ## Each part by its writers -/

section Writers
variable {s t : State} {i : Instr}

/-- No event writes sample memory, the audio stream, the arrived events or the parameters. -/
theorem EventWrites.keeps (h : EventWrites s i t) :
    t.mem = s.mem ∧ t.audio = s.audio ∧ t.inbox = s.inbox ∧ t.turns = s.turns ∧ t.cfg = s.cfg ∧ t.draws = s.draws := by
  cases h <;> exact ⟨rfl, rfl, rfl, rfl, rfl, rfl⟩

theorem EventWrites.of_trig_ne (h : EventWrites s i t) (hne : t.trig ≠ s.trig) : i = .reset ∨ IsCallback i := by
  cases h with
  | reset => exact .inl rfl
  | callback hi => exact .inr hi
  | _ => exact absurd rfl hne

theorem EventWrites.of_position_ne (h : EventWrites s i t) (hne : t.rBusy ≠ s.rBusy ∨ t.rFrame ≠ s.rFrame) :
    i = .reset ∨ IsCallback i := by
  cases h with
  | reset => exact .inl rfl
  | callback hi => exact .inr hi
  | _ => exact hne.elim (absurd rfl) (absurd rfl)

theorem EventWrites.of_held_ne (h : EventWrites s i t) (hne : t.held ≠ s.held) : IsCallback i := by
  cases h with
  | hold hi => exact hi
  | _ => exact absurd rfl hne

theorem EventWrites.of_cv_ne (h : EventWrites s i t) (hne : t.cv ≠ s.cv) : i = .reset ∨ ∃ k d, i = .wrCv k d := by
  cases h with
  | reset => exact .inl rfl
  | cv k d => exact .inr ⟨k, d, rfl⟩
  | _ => exact absurd rfl hne

theorem EventWrites.of_enc_ne (h : EventWrites s i t) (hne : t.enc ≠ s.enc) :
    i ∈ [Instr.reset, .tickFail, .rdEncValue, .rdEncButton] ∨ (∃ a b btn, i = .tick a b btn) ∨
      ∃ d, i = .wrEncCtrl d := by
  cases h with
  | reset => exact .inl (by decide)
  | tick hi =>
    obtain rfl | htick := hi
    · exact .inl (by decide)
    · exact .inr (.inl htick)
  | consume hi => obtain rfl | rfl := hi <;> exact .inl (by decide)
  | encCtrl d | encCtrlIllegal d => exact .inr (.inr ⟨d, rfl⟩)
  | _ => exact absurd rfl hne

theorem EventWrites.of_midi_ne (h : EventWrites s i t) (hne : t.midi ≠ s.midi) :
    i = .reset ∨ ∃ b : Byte, i = decodeMidi b := by
  cases h with
  | reset => exact .inl rfl
  | midiStatus hi => exact .inr ⟨_, hi⟩
  | midiData b => exact .inr ⟨_, eq_decodeMidi rfl rfl⟩
  | _ => exact absurd rfl hne

theorem EventWrites.of_diag_ne (h : EventWrites s i t) (hne : t.diag ≠ s.diag) : ∃ b, i = .midiData b := by
  cases h with
  | midiData b => exact ⟨b, rfl⟩
  | _ => exact absurd rfl hne

/-- A response is one word, and answers a read (30_encoding.md R97). -/
theorem EventWrites.of_responses_ne (h : EventWrites s i t) (hne : t.responses ≠ s.responses) :
    (∃ a, encode i = encodeRead a) ∧ ∃ w, t.responses = s.responses ++ [w] := by
  cases h with
  | read hi w => exact ⟨hi, w, rfl⟩
  | consume hi c w => obtain rfl | rfl := hi <;> exact ⟨⟨_, rfl⟩, w, rfl⟩
  | _ => exact absurd rfl hne

theorem EventWrites.of_err_ne (h : EventWrites s i t) (hne : t.err ≠ s.err) :
    i = .reset ∨ ∃ d, i = .wrErr d ∨ i = .wrEncCtrl d ∨ ∃ v, i ∈ voiceWrites v d := by
  cases h with
  | reset => exact .inl rfl
  | clearErr d => exact .inr ⟨d, .inl rfl⟩
  | encCtrlIllegal d => exact .inr ⟨d, .inr (.inl rfl)⟩
  | rejected hi => exact .inr ⟨_, .inr (.inr ⟨_, hi⟩)⟩
  | _ => exact absurd rfl hne

/-- What an event writes of each voice: the host writes one voice, the others write all alike. -/
theorem EventWrites.voice_write (h : EventWrites s i t) (v : Fin 8) :
    VoiceWrite i v (s.voices.get v) (t.voices.get v) := by
  cases h with
  | reset => exact .reset rfl _
  | callback hi levels failed => exact .callback hi (prologue_voice_write levels failed s v)
  | midiData b m l hv => exact hv v
  | voice hw =>
    rw [State.setVoice_voices, Oct.get_set]
    split
    · next hv =>
      subst hv
      exact .host hw
    · exact .kept
  | _ => exact .kept

/-- Only a write of Suspended empties the list of raced words (20_memory.md R75 (c)). -/
theorem HostWrite.of_raced_ne {v : Fin 8} {d : Word} {x y : Voice} (h : HostWrite v d x i y) (hne : y.raced ≠ x.raced) :
    i = .wrVState v 2 := by
  cases h with
  | state st hd =>
    obtain ⟨rfl, -⟩ | ⟨rfl, -⟩ | ⟨-, rfl⟩ := playStateOf_eq_some hd
    · exact absurd rfl hne
    · exact absurd rfl hne
    · rfl
  | _ => exact absurd rfl hne

/-- The bits of ERR after an event: at most one is set, and only WR ERR and reset clear one (60_exceptions.md R300). -/
theorem EventWrites.err_cases (h : EventWrites s i t) :
    t.err = s.err ∨ t.err = s.err ||| 0b001 ∨ t.err = s.err ||| 0b010 ∨ t.err = s.err ||| 0b100 ∨
      i = .reset ∨ ∃ d, i = .wrErr d := by
  cases h with
  | reset => simp
  | clearErr d => simp
  | encCtrlIllegal => exact .inr (.inr (.inl rfl))
  | rejected _ hbit =>
    simp only [List.mem_cons, List.not_mem_nil, or_false] at hbit
    obtain rfl | rfl | rfl := hbit
    · exact .inr (.inl rfl)
    · exact .inr (.inr (.inl rfl))
    · exact .inr (.inr (.inr (.inl rfl)))
  | _ => exact .inl rfl

/-- An access that sets a bit of ERR writes nothing else, ENC_CTRL apart (60_exceptions.md R302). -/
theorem EventWrites.only_err (h : EventWrites s i t) (hne : t.err ≠ s.err) :
    t = { s with err := t.err } ∨ i = .reset ∨ ∃ d, i = .wrEncCtrl d := by
  cases h with
  | reset => exact .inr (.inl rfl)
  | encCtrlIllegal d => exact .inr (.inr ⟨d, rfl⟩)
  | clearErr | rejected => exact .inl rfl
  | _ => exact absurd rfl hne

end Writers

/-! ## The statements -/

/-- Settles O59: every event is one of `EventWrites`. -/
theorem eventsCompleteAndSetAtMostOneErrBit : Obligations.EventsCompleteAndSetAtMostOneErrBit := by
  intro i s
  obtain ⟨t, ht, hw⟩ := exec_writes i s
  exact ⟨t, ht, hw.err_cases, hw.only_err⟩

/-- Settles O58: each part of the state by the constructors of `EventWrites` that replace it, each field of a voice by
those of `VoiceWrite`, and RENDER's turn by `RenderWrite`. -/
theorem eachPartHasItsWriters : Obligations.EachPartHasItsWriters := by
  refine ⟨fun i s t h => ?_, fun s t h => ⟨renderStep_frame h, fun v => ?_⟩⟩
  · obtain ⟨t', ht', hw⟩ := exec_writes i s
    cases ht'.symm.trans h
    obtain ⟨hmem, haudio, hinbox, hturns, hcfg, hdraws⟩ := hw.keeps
    refine ⟨fun a => by rw [hmem], haudio, hinbox, hturns, hcfg, hdraws, hw.of_trig_ne, hw.of_position_ne,
      hw.of_held_ne, hw.of_cv_ne, hw.of_enc_ne, hw.of_midi_ne, hw.of_diag_ne, hw.of_responses_ne, hw.of_err_ne,
      fun v => ?_⟩
    intro x y callback
    have hv : VoiceWrite i v x y := hw.voice_write v
    clear_value x y
    cases hv with
    | kept => simp
    | reset hi => simp [hi]
    | callback hi hr =>
      cases hr with
      | mk state phase hspeed hpitch hlevel hpan =>
        refine ⟨fun _ => .inr (.inl hi), fun _ => .inr (.inl hi), absurd rfl,
          fun hne => .inr (.inl ⟨hi, mt hspeed hne⟩), fun hne => .inr (.inl ⟨hi, mt hpitch hne⟩),
          fun hne => .inr (.inl ⟨hi, mt hlevel hne⟩), fun hne => .inr (.inl ⟨hi, mt hpan hne⟩), ?_⟩
        simp
    | note hi => simp [hi]
    | host hw =>
      have hraced := hw.of_raced_ne
      cases hw with
      | state st hd => simpa [Voice.withState] using hraced
      | _ => simp
  · obtain ⟨inc, hr⟩ := renderStep_voice_write h v
    generalize s.voices.get v = x at hr
    generalize t.voices.get v = y at hr
    cases hr with
    | mk state phase hspeed hpitch hlevel hpan => exact ⟨rfl, hspeed, hpitch, hlevel, hpan⟩

end Sys2Proof.Machine


/-! SUPPORT. 70_reset_and_hazards.md R320 and R322: what RESET sets and leaves, and the state before the first event. -/

namespace Sys2Proof

/-- Every OPEN parameter is drawn from its range (00_scope.md R3). -/
theorem Config.params_legal : Config.params.Legal := by
  simp only [Params.Legal, Config.params]
  omega

end Sys2Proof

namespace Sys2Proof.Machine

/-! ## The power-on state -/

/-- The power-on state holds the reset value in every register that RESET writes (70_reset_and_hazards.md R322). -/
theorem resetRegisters_powerOn (p : Params) : (State.powerOn p).resetRegisters = State.powerOn p := rfl

theorem State.RegistersOk.powerOn {p : Params} (hp : p.Legal) : (State.powerOn p).RegistersOk := by
  obtain ⟨-, -, -, -, -, -, -, ⟨hframes, -⟩, -⟩ := id hp
  refine ⟨hp, .reset hp, .reset hp, .reset, fun v => ?_, ⟨hframes, fun _ => rfl⟩, powerOn_wf p⟩
  rw [← resetRegisters_powerOn, State.resetRegisters_voices, Oct.get_build]
  exact .reset v

theorem State.FloatsOk.powerOn (p : Params) : (State.powerOn p).FloatsOk :=
  resetRegisters_powerOn p ▸ .reset (State.powerOn p)

/-! ## The parameters of the run -/

theorem exec_cfg {i : Instr} {s t : State} (h : exec i s = .next t) : t.cfg = s.cfg := by
  obtain ⟨t', ht', hw⟩ := exec_writes i s
  cases ht'.symm.trans h
  obtain ⟨-, -, -, -, hcfg, -⟩ := hw.keeps
  exact hcfg

theorem renderStep_cfg {s t : State} (h : renderStep s = .next t) : t.cfg = s.cfg := by
  rw [renderStep_frame h]

/-! ## The statements -/

/-- Settles O10: an event, a turn of RENDER and a write of sample memory by its owner each keep the parameters. -/
theorem stepKeepsParameters : Obligations.StepKeepsParameters := by
  intro s t h
  obtain ⟨ts, i, rest, -, -, he⟩ | ⟨ts, -, -, -, he⟩ | ⟨ts, -, he⟩ | ⟨ts, a, d, -, he⟩ := step_cases s <;> rw [he] at h
  · exact exec_cfg (s := { s with turns := ts, inbox := rest }) h
  · exact renderStep_cfg (s := { s with turns := ts }) h
  · exact renderStep_cfg (s := { s with turns := ts }) h
  · cases h
    rw [storeSample_frame]

/-- Settles O8: RESET is `State.resetRegisters`, which writes the eight register groups and nothing else. -/
theorem resetAppliesResetState : Obligations.ResetAppliesResetState := by
  intro s
  refine ⟨s.resetRegisters, rfl, rfl, fun v => ?voice, rfl, rfl, fun i => ?count, rfl, rfl, fun k => ?cv, rfl, rfl, rfl,
    rfl⟩
  case voice =>
    rw [State.resetRegisters_voices, Oct.get_build]
    rfl
  case count => rw [State.resetRegisters_trig, Trigger.reset, Oct.get_build]
  case cv => rw [State.resetRegisters_cv, cvReset, Oct.get_build]

/-- Settles O9: the power-on state is a fixed point of RESET, whose values are legal for all legal parameters. -/
theorem powerOnStateIsLegal : Obligations.PowerOnStateIsLegal :=
  ⟨fun p hp => ⟨.powerOn hp, .powerOn p, congrArg Host.Outcome.next (resetRegisters_powerOn p)⟩, Config.params_legal, rfl⟩

end Sys2Proof.Machine

/-! SUPPORT. The sample words of 95_test_vectors.md 2.1. -/

namespace Sys2Proof

theorem decode_encode_nil {i : Instr} (h : WellFormed i = true) : decode (encode i) = .ok i [] := by
  simpa only [List.append_nil] using decodeEncodeRoundTrip i [] h

/-- The port alone makes a header RESET's: its bits [12:0] are ignored (R95, R103 (e)). -/
theorem decode_reset {h : Half} (hp : headerPort h = 4) : decode [h] = .ok .reset [] := by
  rw [decode_of_port_ne_zero (by rw [hp]; decide), decodeEvent_reset hp]

/-- Settles O3: the headers of N1 and N2 are of port 100, and the other words are those the encoder writes for their
events (R91 to R94). -/
theorem specWordsDecode : Obligations.SpecWordsDecode :=
  ⟨decode_reset rfl,
   decode_reset rfl,
   decode_encode_nil (i := .rdEncValue) rfl,
   decode_encode_nil (i := .wrVLevel 3 500) rfl,
   decode_encode_nil (i := .rdVPhase 5) rfl,
   decode_encode_nil (i := .midiNoteOnStatus 0) rfl,
   decode_encode_nil (i := .midiMetaStart) rfl,
   decode_encode_nil (i := .tick true false true) rfl,
   decode_encode_nil (i := .tickFail) rfl,
   decode_encode_nil (i := .cb 0x81) rfl,
   decode_encode_nil (i := .cbFail) rfl,
   decode_encode_nil (i := .reservedAccess false 0x200 0) rfl⟩

end Sys2Proof

/-! SUPPORT. EXP2F on the whole line (92_eei_decisions.md D5 (a) to (c)): the value at an integer, the bounds of each of
its three regions, and the order within each and across them. -/

namespace Sys2Proof.Machine

/-! ## Values at places of either sign -/

theorem place_ofPlace_of_natAbs_lt {n : Int} (h : n.natAbs < 2 ^ 31) : place (ofPlace n) = n := by
  have hneg : isNeg (ofPlace n) = decide (n < 0) := isNeg_pack _ _ h
  rw [place_eq, hneg, magBits_ofPlace h]
  simp only [decide_eq_true_eq]
  split <;> omega

/-- A value whose place is not past that of ±∞ is no NaN. -/
theorem isNaN_eq_false_of_place {x : F32} (hlo : -0x7F800000 ≤ place x) (hhi : place x ≤ 0x7F800000) :
    isNaN x = false := by
  have hp := place_eq x
  refine isNaN_eq_false ?_
  split at hp <;> omega

section Stretch
variable {lo hi : Int} (base : Int) (hlo : -0x7F800000 ≤ lo) (h : lo ≤ hi) (hhi : hi ≤ 0x7F800000)
include hlo h hhi

theorem place_exp2fFrom (p : Int) :
    place (exp2fFrom lo hi base p) = exp2fBlock 30 lo hi base (p - base).toNat := by
  have hb := exp2fBlock_bounds 30 lo hi base (p - base).toNat h
  exact place_ofPlace_of_natAbs_lt (by omega)

theorem place_exp2fFrom_mem (p : Int) :
    lo ≤ place (exp2fFrom lo hi base p) ∧ place (exp2fFrom lo hi base p) ≤ hi := by
  rw [place_exp2fFrom base hlo h hhi]
  exact exp2fBlock_bounds 30 lo hi base (p - base).toNat h

theorem place_exp2fFrom_mono {p q : Int} (hpq : p ≤ q) :
    place (exp2fFrom lo hi base p) ≤ place (exp2fFrom lo hi base q) := by
  rw [place_exp2fFrom base hlo h hhi, place_exp2fFrom base hlo h hhi]
  exact exp2fBlock_mono 30 lo hi base _ _ h (Int.toNat_le_toNat (Int.sub_le_sub_right hpq base))

end Stretch

/-! ## D5 (a): the value at an integer -/

theorem ffloor_flt {k : Int} (h : k.natAbs ≤ 2 ^ 24) : ffloor (flt k) = k := by
  obtain ⟨hf, hu⟩ := units_flt k h
  have hone := oneUnits_pos
  exact (ffloor_isFloor _ hf).unique ⟨hu.ge, by rw [hu, add_mul]; omega⟩

theorem exp2f_flt {k : Int} (hlo : -126 ≤ k) (hhi : k ≤ 127) : exp2f (flt k) = pow2 k := by
  obtain ⟨hf, hu⟩ := units_flt k (by omega)
  have hone := oneUnits_pos
  rw [exp2f_of_inRange hf (hu ▸ mul_le_mul_of_nonneg_right hlo hone.le) (hu ▸ mul_le_mul_of_nonneg_right hhi hone.le),
    ffloor_flt (by omega), if_pos rfl]

theorem isNeg_pow2 {k : Int} (h : k ≤ 127) : isNeg (pow2 k) = false := isNeg_pack _ _ (by omega)

/-- 2^k is 2^(k + 149) units of 2^−149. -/
theorem magUnits_pow2 {k : Int} (hlo : -126 ≤ k) (hhi : k ≤ 127) : magUnits (pow2 k) = 2 ^ (k + 149).toNat := by
  obtain ⟨e, he⟩ : ∃ e : Nat, k + 126 = e := ⟨(k + 126).toNat, by omega⟩
  have hexp : (k + 127).toNat = e + 1 := by omega
  have hunits : (k + 149).toNat = 23 + e := by omega
  rw [magUnits_eq_magOf, magBits_pow2 hhi, hexp, hunits, pow_add]
  simpa only [Nat.add_zero] using magOf_normal e 0 (by decide)

theorem place_pow2_succ_bounds {k : Int} (h : k < 127) :
    0 ≤ place (pow2 k) ∧ place (pow2 k) ≤ place (pow2 (k + 1)) ∧ place (pow2 (k + 1)) ≤ 0x7F000000 := by
  rw [place_pow2 (k := k) (by omega), place_pow2 (k := k + 1) (by omega)]
  omega

/-! ## The three regions of EXP2F -/

theorem place_flt_127 : place (flt 127) = 0x42FE0000 := by decide

theorem place_flt_neg126 : place (flt (-126)) = -0x42FC0000 := by decide

theorem place_pow2_127 : place (pow2 127) = 0x7F000000 := by decide

theorem place_pow2_neg126 : place (pow2 (-126)) = 0x00800000 := by decide

theorem exp2f_of_high {t : F32} (ht : isNaN t = false) (h : place (flt 127) < place t) :
    exp2f t = exp2fFrom (place (pow2 127)) 0x7F800000 (place (flt 127)) (place t) := by
  have hlt : fLt (flt 127) t = true := (fLt_iff_place _ _).2 ⟨by decide, ht, h⟩
  rw [exp2f, ht, if_neg Bool.false_ne_true, if_pos hlt]

theorem exp2f_of_low {t : F32} (ht : isNaN t = false) (h : place t < place (flt (-126))) :
    exp2f t = exp2fFrom (-0x7F800000) (place (pow2 (-126))) (-0x7F800000) (place t) := by
  have hnhigh : ¬fLt (flt 127) t = true := by
    rw [fLt_iff_place, place_flt_127]
    rw [place_flt_neg126] at h
    omega
  have hlow : fLt t (flt (-126)) = true := (fLt_iff_place _ _).2 ⟨ht, by decide, h⟩
  rw [exp2f, ht, if_neg Bool.false_ne_true, if_neg hnhigh, if_pos hlow]

/-- Between the places of −126 and 127 stand the finite values of −126..127. -/
theorem finite_units_of_mid {t : F32} (hlo : place (flt (-126)) ≤ place t) (hhi : place t ≤ place (flt 127)) :
    isFinite t = true ∧ -126 * oneUnits ≤ units t ∧ units t ≤ 127 * oneUnits := by
  obtain ⟨-, hu127⟩ := units_flt 127 (by decide)
  obtain ⟨-, hu126⟩ := units_flt (-126) (by decide)
  refine ⟨?_, hu126 ▸ (place_le_iff_units_le _ _).1 hlo, hu127 ▸ (place_le_iff_units_le _ _).1 hhi⟩
  rw [place_flt_neg126] at hlo
  rw [place_flt_127] at hhi
  have hp := place_eq t
  refine isFinite_of_magBits_le (m := 0x42FE0000) ?_ (by decide)
  split at hp <;> omega

/-- Above 127, EXP2F is between 2^127 and +∞ (log 4). -/
theorem place_exp2f_of_high {t : F32} (ht : isNaN t = false) (h : place (flt 127) < place t) :
    0x7F000000 ≤ place (exp2f t) ∧ place (exp2f t) ≤ 0x7F800000 := by
  rw [exp2f_of_high ht h, place_pow2_127]
  exact place_exp2fFrom_mem _ (by decide) (by decide) (by decide) _

/-- Below −126, EXP2F is at most 2^−126 (log 4). -/
theorem place_exp2f_of_low {t : F32} (ht : isNaN t = false) (h : place t < place (flt (-126))) :
    -0x7F800000 ≤ place (exp2f t) ∧ place (exp2f t) ≤ 0x00800000 := by
  rw [exp2f_of_low ht h, place_pow2_neg126]
  exact place_exp2fFrom_mem _ (by decide) (by decide) (by decide) _

/-- In −126..127, EXP2F is between 2^−126 and 2^127. -/
theorem place_exp2f_of_mid {t : F32} (hlo : place (flt (-126)) ≤ place t) (hhi : place t ≤ place (flt 127)) :
    0x00800000 ≤ place (exp2f t) ∧ place (exp2f t) ≤ 0x7F000000 := by
  obtain ⟨hf, ha, hb⟩ := finite_units_of_mid hlo hhi
  rw [← place_pow2_neg126, ← place_pow2_127]
  exact exp2f_between (by decide) (by decide) hf ha hb

/-- From −126 on, EXP2F is at least 2^−126. -/
theorem le_place_exp2f {t : F32} (ht : isNaN t = false) (h : place (flt (-126)) ≤ place t) :
    0x00800000 ≤ place (exp2f t) := by
  obtain hhigh | hhi := lt_or_ge (place (flt 127)) (place t)
  · exact (by decide : (0x00800000 : Int) ≤ 0x7F000000).trans (place_exp2f_of_high ht hhigh).1
  · exact (place_exp2f_of_mid h hhi).1

theorem isNaN_exp2f {t : F32} (ht : isNaN t = false) : isNaN (exp2f t) = false := by
  have hbounds : -0x7F800000 ≤ place (exp2f t) ∧ place (exp2f t) ≤ 0x7F800000 := by
    obtain hhigh | hhi := lt_or_ge (place (flt 127)) (place t)
    · have := place_exp2f_of_high ht hhigh
      omega
    · obtain hlow | hlo := lt_or_ge (place t) (place (flt (-126)))
      · have := place_exp2f_of_low ht hlow
        omega
      · have := place_exp2f_of_mid hlo hhi
        omega
  obtain ⟨hlo, hhi⟩ := hbounds
  exact isNaN_eq_false_of_place hlo hhi

/-! ## D5 (c): EXP2F is monotone -/

theorem ffloor_mono {t u : F32} (ht : isFinite t = true) (hu : isFinite u = true) (h : units t ≤ units u) :
    ffloor t ≤ ffloor u := by
  obtain ⟨htk, -⟩ := ffloor_isFloor t ht
  obtain ⟨-, huk⟩ := ffloor_isFloor u hu
  exact Int.lt_add_one_iff.1 (lt_of_mul_lt_mul_right ((htk.trans h).trans_lt huk) oneUnits_pos.le)

/-- In −126..127: with an integer between the inputs, its power of two is between the values; otherwise the smaller
input is an integer itself, or both are of one stretch of free values. -/
theorem place_exp2f_mono_of_mid {t u : F32} (hlo : place (flt (-126)) ≤ place t) (htu : place t ≤ place u)
    (hhi : place u ≤ place (flt 127)) : place (exp2f t) ≤ place (exp2f u) := by
  obtain ⟨htf, hta, htb⟩ := finite_units_of_mid hlo (htu.trans hhi)
  obtain ⟨huf, hua, hub⟩ := finite_units_of_mid (hlo.trans htu) hhi
  obtain ⟨htk, htk'⟩ := ffloor_isFloor t htf
  obtain ⟨huk, -⟩ := ffloor_isFloor u huf
  obtain ⟨hk, htop⟩ := ffloor_between htf hta htb
  obtain ⟨hl', hl⟩ := ffloor_between huf hua hub
  have hpow : place (pow2 (ffloor u)) ≤ place (exp2f u) := (exp2f_between hl' (by decide) huf huk hub).1
  obtain hlt | heq := (ffloor_mono htf huf ((place_le_iff_units_le t u).1 htu)).lt_or_eq
  · have hnext : place (exp2f t) ≤ place (pow2 (ffloor t + 1)) :=
      (exp2f_between hk (by omega) htf htk htk'.le).2
    rw [place_pow2 (by omega)] at hnext hpow
    omega
  · obtain ⟨hflt, hfu⟩ := units_flt (ffloor t) (by omega)
    have hbase : place (flt (ffloor t)) ≤ place t := (place_le_iff_units_le _ _).2 (hfu ▸ htk)
    rw [exp2f_of_inRange htf hta htb]
    split
    · exact heq ▸ hpow
    · next hne =>
      have hlt : ffloor t < 127 := htop.resolve_right fun ⟨hk127, hu127⟩ =>
        hne ((place_eq_iff_units_eq _ _).2 (by rw [hfu, hk127, hu127]))
      rw [exp2f_of_inRange huf hua hub, ← heq, if_neg (by omega)]
      obtain ⟨hpos, hle, hmax⟩ := place_pow2_succ_bounds hlt
      exact place_exp2fFrom_mono _ (hpos.trans' (by decide)) hle (hmax.trans (by decide)) htu

theorem place_exp2f_mono {t u : F32} (ht : isNaN t = false) (hu : isNaN u = false) (htu : place t ≤ place u) :
    place (exp2f t) ≤ place (exp2f u) := by
  obtain htlow | htlo := lt_or_ge (place t) (place (flt (-126)))
  · obtain hulow | hulo := lt_or_ge (place u) (place (flt (-126)))
    · rw [exp2f_of_low ht htlow, exp2f_of_low hu hulow, place_pow2_neg126]
      exact place_exp2fFrom_mono _ (by decide) (by decide) (by decide) htu
    · exact (place_exp2f_of_low ht htlow).2.trans (le_place_exp2f hu hulo)
  · obtain huhigh | huhi := lt_or_ge (place (flt 127)) (place u)
    · obtain hthigh | hthi := lt_or_ge (place (flt 127)) (place t)
      · rw [exp2f_of_high ht hthigh, exp2f_of_high hu huhigh, place_pow2_127]
        exact place_exp2fFrom_mono _ (by decide) (by decide) (by decide) htu
      · exact (place_exp2f_of_mid htlo hthi).2.trans (place_exp2f_of_high hu huhigh).1
    · exact place_exp2f_mono_of_mid htlo htu huhi

/-- Settles O29: EXP2F is 2^k at an integer k, at least 2^−126 from −126 on, and monotone within and across its three
regions. -/
theorem exp2fMeetsD5 : Obligations.Exp2fMeetsD5 := by
  refine ⟨fun k hlo hhi => ⟨exp2f_flt hlo hhi, magUnits_pow2 hlo hhi, isNeg_pow2 hhi⟩, fun t htlo _ => ?_,
    fun t u htu => ?_⟩
  · obtain ⟨-, ht, hp⟩ := (fLe_iff_place _ _).1 htlo
    have hpos : place f0 < place (exp2f t) := place_f0 ▸ (le_place_exp2f ht hp).trans_lt' (by decide)
    exact (fLt_iff_place _ _).2 ⟨isNaN_f0, isNaN_exp2f ht, hpos⟩
  · obtain ⟨ht, hu, hp⟩ := (fLe_iff_place _ _).1 htu
    exact (fLe_iff_place _ _).2 ⟨isNaN_exp2f ht, isNaN_exp2f hu, place_exp2f_mono ht hu hp⟩

end Sys2Proof.Machine
